-- ==== Sys2Proof/Word.lean ====
section
/-!
DEFINITION. The word types of the part: bytes of the bus and the lanes, samples of the store.
-/

namespace Sys2Proof

/-- A byte on the control bus or on an input lane. -/
abbrev Byte := BitVec 8

/-- A 24-bit sample as a word of sample memory stores it (spec/00, Conventions). -/
abbrev Sample := BitVec 24

end Sys2Proof
end

