-- ==== Sys2Proof/Syntax.lean ====
section
/-!
DEFINITION. The commands of the part: one constructor per row of spec/opcode_table.json, with its operands.
A row that is a bus command carries the 7-bit address of its write frame and the frame's payload bytes
(spec/12, Bus frames); a row that is an event carries what the outside world brings to it.
-/

namespace Sys2Proof

/-- Feed A or feed B. -/
inductive Side where
  | a | b
  deriving DecidableEq, Repr

/-- Input lane 0 or 1 of a feed. -/
inductive Lane where
  | l0 | l1
  deriving DecidableEq, Repr

/-- The four roles (spec/00): 0 feed A controller, 1 feed B controller, 2 render processor, 3 system controller. -/
inductive Role where
  | feedA | feedB | render | system
  deriving DecidableEq, Repr

/-- Direction of a bus frame. -/
inductive Direction where
  | write | read
  deriving DecidableEq, Repr

/-- Who reads a word of sample memory at a house sample event: a feed's resampler, for its own value or a patch
(R78), or the output stage for a delay line (R40). -/
inductive Reader where
  | feed (x : Side)
  | delay
  deriving DecidableEq, Repr

/-- One access of sample memory at a house sample event, as a passing fault can meet it (R36, R41): the reader, the
channel or output, the point of the read (the tap, counted from 0 in the order of R82 and R83), and whether it is
the reread. -/
structure Access where
  reader : Reader
  index  : Nat
  tap    : Nat
  reread : Bool
  deriving DecidableEq, Repr

/-- A read of a ring at a house sample event: the feed and the channel that it is made for, and the tap, as in
`Access`. -/
structure RingRead where
  feed    : Side
  channel : Nat
  tap     : Nat
  deriving DecidableEq, Repr

/-- What the reads of a house sample event meet: the accesses that meet a passing fault (R36, R41), and the ring reads
that come after all others, in their order, each after the marking of the slots that the reads before it failed in
(R79). A ring read that is not listed comes before every marking. -/
structure SampleReads where
  passing : List Access
  late    : List RingRead
  deriving DecidableEq, Repr

/-- The eight header bytes that follow the sync word of a lane block (spec/12, Lane blocks). -/
structure LaneHeader where
  laneNo : Byte
  count  : Byte
  flags  : Byte
  stamp  : BitVec 40
  deriving DecidableEq, Repr

/-- What an edge of word clock in brings: what the reads of its house sample event meet, and whether the master clock is
stopped when it comes (R1, R3, log 61). -/
structure WordEdge where
  reads   : SampleReads
  stopped : Bool
  deriving DecidableEq, Repr

/-- The commands. -/
inductive Instr where
  /-- POWER_ON (R13): the level of the ADDR strap. -/
  | powerOn (strap : Bool)
  /-- RESET_ASSERT (R13). -/
  | resetAssert
  /-- RESET_RELEASE (R12): the level of the ADDR strap. -/
  | resetRelease (strap : Bool)
  /-- DIVIDER_TERMINAL_COUNT (R1): what the reads of its house sample event meet. -/
  | dividerTerminalCount (reads : SampleReads)
  /-- WORD_CLOCK_EDGE (R3). -/
  | wordClockEdge (edge : WordEdge)
  /-- WORD_CLOCK_LOSS (R4). -/
  | wordClockLoss
  /-- LOSS_CONDITION (R5). -/
  | lossCondition
  /-- RETURN_PERIOD_GOOD (R5). -/
  | returnPeriodGood
  /-- BLOCK_EVENT (R9): the level sampled on the MUTE line (R143), and whether the cue pass comes before the other
  judgements of the block event (R102, R127). -/
  | blockEvent (mute : Bool) (cuesFirst : Bool)
  /-- STARTUP_END (R12). -/
  | startupEnd
  /-- WORD_PARITY_FAULT (R36): the word. -/
  | wordParityFault (word : Nat)
  /-- LANE_BLOCK_BEGIN (R15). -/
  | laneBlockBegin (feed : Side) (lane : Lane) (header : LaneHeader)
  /-- LANE_BLOCK_ARRIVE (R16, R188): bytes received on the lane, in order; where a header was taken before them, samples
  and then the check word. -/
  | laneBlockArrive (feed : Side) (lane : Lane) (bytes : List Byte)
  /-- LANE_BLOCK_ABANDON (R15). -/
  | laneBlockAbandon (feed : Side) (lane : Lane)
  /-- PACE_WINDOW_EXPIRY (R27). -/
  | paceWindowExpiry (feed : Side)
  /-- BURST_WINDOW_EXPIRY (R28). -/
  | burstWindowExpiry (feed : Side)
  /-- WATCH_PERIOD_CLOSE (R29). -/
  | watchPeriodClose (feed : Side)
  /-- FEEDSET (R33). -/
  | feedset (addr : BitVec 7) (payload : List Byte)
  /-- PLAY (R49). -/
  | play (addr : BitVec 7) (payload : List Byte)
  /-- STOP (R59). -/
  | stop (addr : BitVec 7) (payload : List Byte)
  /-- STOP_ON_AIR_TAKE (R100): the role whose STOP awaits. -/
  | stopOnAirTake (role : Role)
  /-- FEEDACK (R62). -/
  | feedack (addr : BitVec 7) (payload : List Byte)
  /-- FEEDSTAT (R63). -/
  | feedstat (addr : BitVec 7) (payload : List Byte)
  /-- TRANSITION_END (R89). -/
  | transitionEnd
  /-- ONAIR (R101). -/
  | onair (addr : BitVec 7) (payload : List Byte)
  /-- ONAIR_TAKE (R101). -/
  | onairTake
  /-- POLICY (R104). -/
  | policy (addr : BitVec 7) (payload : List Byte)
  /-- SCNOPEN (R112). -/
  | scnopen (addr : BitVec 7) (payload : List Byte)
  /-- SCENE_COPY (R113). -/
  | sceneCopy
  /-- ROUTESET (R114). -/
  | routeset (addr : BitVec 7) (payload : List Byte)
  /-- ROUTEDROP (R116). -/
  | routedrop (addr : BitVec 7) (payload : List Byte)
  /-- SCNSEAL (R117). -/
  | scnseal (addr : BitVec 7) (payload : List Byte)
  /-- SCNDISCARD (R118). -/
  | scndiscard (addr : BitVec 7) (payload : List Byte)
  /-- SCNTAKE (R119). -/
  | scntake (addr : BitVec 7) (payload : List Byte)
  /-- TAKE (R120). -/
  | take
  /-- RAMP_END (R125): the key of the route. -/
  | rampEnd (input output : Nat)
  /-- SCNSTAT (R130). -/
  | scnstat (addr : BitVec 7) (payload : List Byte)
  /-- DUCK_END (R148): the output. -/
  | duckEnd (output : Nat)
  /-- GENERAL_CALL (R166): the bytes after the address 00h. -/
  | generalCall (bytes : List Byte)
  /-- GROUPSET (R140). -/
  | groupset (addr : BitVec 7) (payload : List Byte)
  /-- OUTSET (R146). -/
  | outset (addr : BitVec 7) (payload : List Byte)
  /-- OUTSTAT (R150). -/
  | outstat (addr : BitVec 7) (payload : List Byte)
  /-- CUEPOST (R156). -/
  | cuepost (addr : BitVec 7) (payload : List Byte)
  /-- CUECANCEL (R158). -/
  | cuecancel (addr : BitVec 7) (payload : List Byte)
  /-- CUESTAT (R159). -/
  | cuestat (addr : BitVec 7) (payload : List Byte)
  /-- CLOCKSET (R11). -/
  | clockset (addr : BitVec 7) (payload : List Byte)
  /-- PARTITION (R44). -/
  | partition (addr : BitVec 7) (payload : List Byte)
  /-- IDENT (R175). -/
  | ident (addr : BitVec 7) (payload : List Byte)
  /-- NOTEFETCH (R183). -/
  | notefetch (addr : BitVec 7) (payload : List Byte)
  /-- PROGSTAT (R178). -/
  | progstat (addr : BitVec 7) (payload : List Byte)
  /-- NOTEROUTE (R185). -/
  | noteroute (addr : BitVec 7) (payload : List Byte)
  /-- CALLOCK (R176). -/
  | callock (addr : BitVec 7) (payload : List Byte)
  /-- FLUSH (R177). -/
  | flush (addr : BitVec 7) (payload : List Byte)
  /-- FLUSH_COMPLETE (R177). -/
  | flushComplete
  /-- FRAME_FORMAT_ERROR (R169): every byte the master sent after the address, up to the frame's end. -/
  | frameFormatError (addr : BitVec 7) (bytes : List Byte)
  /-- BUS_STALL (R173): the frame's address and direction and the bytes it had carried. -/
  | busStall (addr : BitVec 7) (dir : Direction) (bytes : List Byte)
  deriving DecidableEq, Repr

end Sys2Proof
end

