-- ==== Sys2Proof/Decode.lean ====
section
/-!
DEFINITION. The words of the table: spec/opcode_table.json gives its rows no bits (no match, no mask, no fields), so
no word spells a command.
-/

namespace Sys2Proof

/-- The command that a word spells by the table's bits. No row of spec/opcode_table.json gives bits, so there is
none for any word. -/
def decodeTableWord (_nbits _w : Nat) : Option Instr := none

end Sys2Proof
end

