-- ==== Sys2Proof/Config.lean ====
section
/-!
DEFINITION. What an implementation fixes: the principal figures of spec/00 and the free values.
-/

namespace Sys2Proof.Config

/-- A free byte: the value of an answer byte that spec/ names but gives no value for. Nothing is known of it.
DESIGN CHOICE (log 14): applied to a counter of State, so that each use is a fresh value. -/
opaque freeByte : Nat → Byte

/-- Words of sample memory (R36). -/
abbrev memWords : Nat := 1048576

/-- Words of a page (R36). -/
abbrev pageWords : Nat := 1024

/-- Unity gain in gain units, which is also the full mute gain (spec/00, Conventions; R138). -/
abbrev unity : Nat := 4194304

/-- One mute step (R139). -/
abbrev muteStep : Nat := 65536

/-- One past the last frame index (spec/00, Conventions). -/
abbrev posEnd : Nat := 1099511627776

/-- Ratio unity, 2^28 (spec/00, Conventions). -/
abbrev ratioUnity : Nat := 268435456

/-- The pace window in house samples (R26 to R28). -/
abbrev paceWindow : Nat := 128

/-- Master clock periods without an edge that make a loss (R4, R5). -/
abbrev lossPeriods : Nat := 2048

/-- House samples of a good return-watch period (R5). -/
abbrev returnPeriod : Nat := 1024

/-- The cue list's capacity (R155). -/
abbrev cueCapacity : Nat := 32

end Sys2Proof.Config
end

