-- ==== Sys2Proof/Machine/State.lean ====
section
/-!
DEFINITION. The state of the part, block by block (spec/00, Block overview), and its value after power-on. Every
field's docstring names the rule of spec/ that gives it; fields of the model's own say so.
-/

namespace Sys2Proof.Machine

open Sys2Proof

/-- Why the machine stops. -/
inductive Fault where
  /-- Raised by WORD_PARITY_FAULT alone, for a word at or above 1,048,576: R36 gives the store no such word. Safe: no
  state follows. -/
  | noSuchWord
  deriving DecidableEq, Repr

/-- Why a command has no meaning. -/
inductive Refusal where
  /-- A command whose row has no meaning yet, by its mnemonic. Raised by `exec` alone. Safe. -/
  | notModelled (mnemonic : String)
  deriving DecidableEq, Repr

/-! ## House clock unit (spec/01) -/

/-- Source setting (R2). -/
inductive ClockSource where
  | internal | external
  deriving DecidableEq, Repr

/-- 48 kHz or 96 kHz: the house rate class (R10) and a feed's rate (R33). -/
inductive Rate where
  | k48 | k96
  deriving DecidableEq, Repr

/-- Clock state (R2). -/
inductive ClockState where
  | internal | following | holdover
  deriving DecidableEq, Repr

/-- The return watch (R5): idle, counting the house samples of the open period, or waiting for the switch of R6. -/
inductive ReturnWatch where
  | idle
  | counting (count : Nat)
  | waiting
  deriving DecidableEq, Repr

/-- Start-up phase (R12). -/
inductive Phase where
  | starting | running
  deriving DecidableEq, Repr

structure Clock where
  /-- source setting (R2) -/
  source      : ClockSource
  /-- house rate class (R10) -/
  rateClass   : Rate
  /-- divider value N, as CLOCKSET stored it (R11) -/
  n           : Nat
  /-- the N loaded when the divider last began from 0 (R1) -/
  loadedN     : Nat
  /-- divider count in master clock periods (R1) -/
  divCount    : Nat
  /-- clock state (R2) -/
  state       : ClockState
  /-- return watch (R5) -/
  watch       : ReturnWatch
  /-- good-period count (R5) -/
  good        : Nat
  /-- master clock periods since the last edge of word clock in (R4, R5) -/
  lossMeasure : Nat
  /-- start-up phase (R12) -/
  phase       : Phase
  /-- scrub page (R12) -/
  scrubPage   : Nat
  /-- house sample counter (R8) -/
  counter     : BitVec 48
  /-- rising edges made on word clock out (R7): the model's record of the line -/
  wclkOut     : Nat
  deriving DecidableEq, Repr

/-! ## Sample memory (spec/03) -/

/-- A word: a sample and its parity (R36). -/
structure MemWord where
  sample : Sample
  good   : Bool
  deriving DecidableEq, Repr

/-- The words that differ from 0 with good parity, addresses strictly rising. -/
abbrev Memory := List (Nat × MemWord)

/-! ## Feed units (spec/02, spec/04) and resamplers (spec/05) -/

/-- Feed mode (spec/02). -/
inductive FeedMode where
  | streaming | single | burst
  deriving DecidableEq, Repr

/-- Speed factor (R66), in the order of spec/12's value codes. -/
inductive Speed where
  | one | pullUp | pullDown | up25 | down24
  deriving DecidableEq, Repr

/-- Feed setup record (spec/02). -/
structure Setup where
  mode  : FeedMode
  rate  : Rate
  speed : Speed
  /-- channel count n -/
  n     : Nat
  /-- lanes used, 1 or 2 -/
  lanes : Nat
  /-- ring depth D is 2 to this -/
  dExp  : Nat
  /-- watch period W is 2 to this -/
  wExp  : Nat
  deriving DecidableEq, Repr

/-- One mark for each lane. -/
structure LaneSet where
  l0 : Bool
  l1 : Bool
  deriving DecidableEq, Repr

/-- State of a ring slot (spec/02). -/
inductive SlotState where
  | empty | filling | good | damaged | missing
  deriving DecidableEq, Repr

/-- Descriptor of a ring slot (spec/02). -/
structure Slot where
  stamp : Option Nat
  state : SlotState
  got   : LaneSet
  deriving DecidableEq, Repr

/-- A lane receiver (R15, R188): hunting, hunting with 6Bh as the last byte, taking the eight header bytes, or
receiving the body of a block, with the bytes received after the header and the bytes still due. `silent` counts the
block events that have fallen since the last byte. -/
inductive Receiver where
  | hunting
  | halfSync
  | heading (got : List Byte) (silent : Nat)
  | receiving (header : LaneHeader) (body : List Byte) (due : Nat) (silent : Nat)
  deriving DecidableEq, Repr

/-- Pace state (R25 to R28). -/
structure Pace where
  /-- line asserted -/
  line     : Bool
  /-- SINGLE: a request is outstanding; BURST: a window is open -/
  isOpen   : Bool
  /-- try 2 -/
  try2     : Bool
  /-- window count -/
  window   : Nat
  /-- lanes begun -/
  begun    : LaneSet
  /-- lanes ended -/
  ended    : LaneSet
  /-- BURST: the line is negated for one house sample and asserted again at the next (R28) -/
  reassert : Bool
  deriving DecidableEq, Repr

/-- Lane watch (R29). -/
structure Watch where
  armed   : Bool
  /-- lane state ABSENT -/
  absent  : Bool
  /-- block events counted in the open period -/
  blocks  : Nat
  /-- good-block marks -/
  marks   : LaneSet
  paceBad : Bool
  /-- consecutive bad periods -/
  bad     : Nat
  /-- consecutive good periods -/
  good    : Nat
  /-- read position at the period's opening -/
  iOpen   : Nat
  deriving DecidableEq, Repr

/-- Feed state (R48). -/
inductive FeedState where
  | idle | seeking | primed | running | ending | complete
  deriving DecidableEq, Repr

/-- Program role (R54). -/
inductive ProgRole where
  | none | leader | standby | outgoing
  deriving DecidableEq, Repr

/-- Reasons of completion; an ending reason is `stopped` or `laneLost` (spec/04). -/
inductive Reason where
  | count | sourceEnd | stopped | laneLost
  deriving DecidableEq, Repr

/-- A PLAY's start position S and count N. -/
structure PlayParams where
  pos   : Nat
  count : Nat
  deriving DecidableEq, Repr

/-- Completion record (R57). -/
structure Completion where
  reason : Reason
  final  : Nat
  deriving DecidableEq, Repr

/-- Rate tracker and resampler (spec/05). -/
structure Resampler where
  rNom     : Nat
  r        : Nat
  acc      : Int
  i        : Nat
  phi      : Nat
  /-- an advance has carried i beyond the last frame, and the position holds (R69) -/
  held     : Bool
  servoErr : Int
  clamped  : Bool
  underrun : Bool
  deriving DecidableEq, Repr

/-- A feed unit with its resampler. -/
structure Feed where
  setup       : Setup
  ring        : List Slot
  /-- head h -/
  h           : Nat
  /-- first stamp -/
  s0          : Nat
  /-- last accepted stamp of lane 0 -/
  last0       : Option Nat
  /-- last accepted stamp of lane 1 -/
  last1       : Option Nat
  sourceEnd   : Option Nat
  rx0         : Receiver
  rx1         : Receiver
  pace        : Pace
  watch       : Watch
  st          : FeedState
  role        : ProgRole
  /-- start position S -/
  startPos    : Nat
  /-- count N; 0 means open -/
  count       : Nat
  ending      : Option Reason
  completion  : Option Completion
  pendingPlay : Option PlayParams
  rs          : Resampler
  deriving DecidableEq, Repr

/-! ## On-air selector (spec/06) -/

/-- The nine selector states (R87); `xfade x` is the crossfade from x to the other feed. -/
inductive SelState where
  | silent
  | onair (x : Side)
  | xfade (x : Side)
  | fade (x : Side)
  | rise (x : Side)
  deriving DecidableEq, Repr

/-- Causes of SILENCE (R105). -/
inductive SilenceCause where
  | loss | stop | fadeBack | abandon | ended
  deriving DecidableEq, Repr

/-- A command that the selector takes at a block event: a role's STOP (R100), or an ONAIR, which is the system
controller's (R101). -/
inductive AwaitedOrder where
  | stop (role : Role) (feed : Side) (handover : Bool)
  | onair (feed : Byte)
  deriving DecidableEq, Repr

/-- A command that awaits the next block event (R100, R101). -/
structure Awaiting where
  order : AwaitedOrder
  /-- the block event it awaits has fallen -/
  due   : Bool
  deriving DecidableEq, Repr

structure Selector where
  state     : SelState
  /-- cold flag (R94) -/
  cold      : Option Side
  /-- abandon mark (R98) -/
  abandoned : Bool
  n0        : Nat
  j         : Nat
  /-- transition count (R89) -/
  n         : Nat
  /-- transition exponent (R89) -/
  kx        : Nat
  /-- program position (R88) -/
  pos       : Nat
  /-- program phase (R88) -/
  phase     : Nat
  /-- standby aligned flag (R91) -/
  aligned   : Bool
  /-- policy: PATCH (R104) -/
  patch     : Bool
  /-- policy: preferred feed (R104) -/
  preferred : Side
  /-- policy: kx (R104) -/
  policyKx  : Nat
  /-- the awaiting commands, in the order in which they reached the selector (R100, R101) -/
  awaiting  : List Awaiting
  /-- the feed last heard (R105); none until a feed is -/
  lastHeard : Option Side
  /-- what began the fade in progress (R105) -/
  fadeCause : SilenceCause
  /-- the model's own: the standby became so at the house sample of the block event that is due, which does not judge
  it (R89, R91, log 29) -/
  fresh     : Bool
  deriving DecidableEq, Repr

/-! ## Scene store (spec/07) -/

/-- An entry of the pending bank (R109). -/
structure RouteEntry where
  input  : Nat
  output : Nat
  target : Int
  k      : Nat
  deriving DecidableEq, Repr

/-- An entry of the active bank (R109). -/
structure ActiveRoute where
  input     : Nat
  output    : Nat
  target    : Int
  k         : Nat
  gain      : Int
  step      : Int
  remaining : Nat
  releasing : Bool
  deriving DecidableEq, Repr

/-- Pending state (R111); kr is held while SEALED. -/
inductive PendState where
  | free
  | building
  | sealed (kr : Nat)
  deriving DecidableEq, Repr

/-- A command that awaits a block event: none, waiting, or the block event has fallen. -/
inductive Await where
  | none | waiting | due
  deriving DecidableEq, Repr

structure Scene where
  active      : List ActiveRoute
  pendingBank : List RouteEntry
  state       : PendState
  /-- copy in progress (R113) -/
  copy        : Await
  /-- awaiting take (R119) -/
  take        : Await
  /-- last take's cut count (R123) -/
  cut         : Nat
  deriving DecidableEq, Repr

/-! ## Output stage (spec/08) -/

structure OutRec where
  trim         : Nat
  delay        : Nat
  pendingDelay : Option Nat
  ownMute      : Bool
  /-- group mask, bit g for group g -/
  mask         : Byte
  /-- mute gain m -/
  m            : Nat
  clip         : Bool
  heldSum      : Int
  heldClipped  : Bool
  heldDelayed  : Int
  /-- delay-line write index (R40) -/
  writeIdx     : Nat
  /-- delay-line valid count (R40) -/
  valid        : Nat
  /-- the model's own: DUCK_END has taken the mute step of the coming house sample (log 6) -/
  stepTaken    : Bool
  deriving DecidableEq, Repr

/-! ## Cue list (spec/09) -/

/-- Cue actions (R154). -/
inductive CueAction where
  | take | groupMute | groupUnmute | switch | mark
  deriving DecidableEq, Repr

structure Cue where
  tag     : Byte
  poster  : Role
  trigger : Nat
  action  : CueAction
  arg     : Byte
  late    : Bool
  deriving DecidableEq, Repr

/-! ## Control bus interface (spec/10) -/

/-- A value for each role. -/
structure PerRole (α : Type) where
  r0 : α
  r1 : α
  r2 : α
  r3 : α
  deriving DecidableEq, Repr

/-- Intake slot (R167). -/
inductive IntakeSlot where
  | free
  | receiving
  | executing (code : Byte)
  deriving DecidableEq, Repr

/-- Result codes (R171). -/
inductive ResultCode where
  | ok | clamped | late | denied | locked | busy | range | format | full | pending | nothing | notAligned | noRoom
  deriving DecidableEq, Repr

/-- State of a response record (R172). -/
inductive RecordState where
  | empty | running | done
  deriving DecidableEq, Repr

/-- Response record (R171). -/
structure Response where
  state  : RecordState
  result : ResultCode
  echo   : Byte
  data   : List Byte
  deriving DecidableEq, Repr

/-- Frame in progress (spec/10 state table). Each row of the table is a whole frame, so none is in progress between
two steps (log 27). -/
structure BusFrame where
  addr     : BitVec 7
  dir      : Direction
  bytes    : List Byte
  overlong : Bool
  deriving DecidableEq, Repr

/-- What the owners of a FLUSH in execution found (R177). -/
structure FlushFound where
  selState : Byte
  routes   : Nat
  cues     : Nat
  deriving DecidableEq, Repr

structure Bus where
  /-- sampled strap: true is high (R165) -/
  strap      : Bool
  slots      : PerRole IntakeSlot
  records    : PerRole Response
  frame      : Option BusFrame
  /-- stall timer counting (R173) -/
  stallTimer : Bool
  /-- calibration lock (R176) -/
  lock       : Bool
  /-- a FLUSH in execution (R177) -/
  flush      : Option FlushFound
  deriving DecidableEq, Repr

/-! ## Notice unit (spec/11) -/

/-- Notice kinds, by priority (spec/11). -/
inductive Kind where
  | memfault | lanelost | failover | silence | feeddone | align | slip | damage | pacelate | tracklimit
  | cutrelease | cue | clip | clock | mute | busabandon
  deriving DecidableEq, Repr

/-- Notice record (spec/11). -/
structure Notice where
  kind   : Kind
  count  : Nat
  detail : List Byte
  time   : BitVec 32
  deriving DecidableEq, Repr

structure Notices where
  /-- routing map: the role of kinds 1 to 16, in order -/
  routing  : List (Option Role)
  /-- per role, records by rising kind number -/
  queues   : PerRole (List Notice)
  /-- per role, alert line driven low -/
  alertLow : PerRole Bool
  deriving DecidableEq, Repr

/-! ## The whole part -/

structure State where
  /-- RESET line asserted (R13) -/
  resetLine    : Bool
  clock        : Clock
  /-- the model's own: a block event has fallen and its row has not been taken (log 4) -/
  blockDue     : Bool
  mem          : Memory
  pagesA       : Nat
  pagesB       : Nat
  pagesD       : Nat
  feedA        : Feed
  feedB        : Feed
  sel          : Selector
  scene        : Scene
  outs         : List OutRec
  /-- group mute flags, bit g for group g (R140) -/
  groups       : Byte
  /-- general-call mute flag (R142) -/
  gcMute       : Bool
  /-- MUTE line's last sample and accepted level (R143) -/
  muteLast     : Bool
  muteAccepted : Bool
  /-- level on the MUTE line -/
  mutePin      : Bool
  /-- the master clock is stopped (R1): the model's record of that input (log 61) -/
  mclkStopped  : Bool
  /-- slot values of the last lane frames, output 0 first (R137) -/
  slots        : List Int
  cues         : List Cue
  bus          : Bus
  notices      : Notices
  /-- the model's own: free values used (log 14) -/
  freeCount    : Nat
  /-- commands waiting, first in first out -/
  pending      : List Instr
  deriving DecidableEq, Repr

/-! ## Values after power-on -/

/-- R13, power-on column. -/
def clockPowerOn : Clock :=
  { source := .internal, rateClass := .k48, n := 127, loadedN := 127, divCount := 0, state := .internal
    watch := .idle, good := 0, lossMeasure := 0, phase := .starting, scrubPage := 0, counter := 0, wclkOut := 0 }

/-- The empty set of lanes. -/
def noLanes : LaneSet := { l0 := false, l1 := false }

/-- An EMPTY slot: no stamp and no lanes received (R23). -/
def emptySlot : Slot := { stamp := none, state := .empty, got := noLanes }

/-- The pace state at rest: line negated, no request, window closed (R23). -/
def paceIdle : Pace :=
  { line := false, isOpen := false, try2 := false, window := 0, begun := noLanes, ended := noLanes, reassert := false }

/-- The lane watch disarmed, PRESENT, counts 0, marks clear (R23). -/
def watchReset : Watch :=
  { armed := false, absent := false, blocks := 0, marks := noLanes, paceBad := false, bad := 0, good := 0, iOpen := 0 }

/-- The default feed setup at base 1 (R34). -/
def defaultSetup (house : Rate) : Setup :=
  { mode := .streaming, rate := house, speed := .one, n := 16, lanes := 1, dExp := 11, wExp := 3 }

/-- A resampler after a reset, with the nominal ratio given (R86). -/
def resamplerReset (rNom : Nat) : Resampler :=
  { rNom := rNom, r := rNom, acc := 0, i := 0, phi := 0, held := false, servoErr := 0, clamped := false, underrun := false }

/-- A feed unit after power-on or the RESET line (R35, R64, R86). The default setup has base 1, so its nominal ratio
is 268,435,456. -/
def feedReset (house : Rate) : Feed :=
  { setup := defaultSetup house, ring := List.replicate 64 emptySlot, h := 0, s0 := 0, last0 := none, last1 := none
    sourceEnd := none, rx0 := .hunting, rx1 := .hunting, pace := paceIdle, watch := watchReset, st := .idle
    role := .none, startPos := 0, count := 0, ending := none, completion := none, pendingPlay := none
    rs := resamplerReset Config.ratioUnity }

/-- The selector after power-on (R107). -/
def selectorPowerOn : Selector :=
  { state := .silent, cold := none, abandoned := false, n0 := 0, j := 0, n := 0, kx := 8, pos := 0, phase := 0
    aligned := false, patch := true, preferred := .a, policyKx := 8, awaiting := [], lastHeard := none
    fadeCause := .loss, fresh := false }

/-- The scene store after a reset (R132). -/
def sceneReset : Scene :=
  { active := [], pendingBank := [], state := .free, copy := .none, take := .none, cut := 0 }

/-- An output record after a reset (R151, R47). -/
def outReset : OutRec :=
  { trim := Config.unity, delay := 0, pendingDelay := none, ownMute := false, mask := 0, m := Config.unity
    clip := false, heldSum := 0, heldClipped := false, heldDelayed := 0, writeIdx := 0, valid := 0
    stepTaken := false }

/-- The same value for every role. -/
def PerRole.all {α : Type} (v : α) : PerRole α := { r0 := v, r1 := v, r2 := v, r3 := v }

/-- An EMPTY response record (R179). -/
def emptyRecord : Response := { state := .empty, result := .ok, echo := 0, data := [] }

/-- The control bus interface after a reset that samples the strap (R179). -/
def busReset (strap : Bool) : Bus :=
  { strap := strap, slots := PerRole.all .free, records := PerRole.all emptyRecord, frame := none
    stallTimer := false, lock := false, flush := none }

/-- The notice unit after a reset: every kind to role 3, queues empty, lines released (R187). -/
def noticesReset : Notices :=
  { routing := List.replicate 16 (some Role.system), queues := PerRole.all [], alertLow := PerRole.all false }

/-- The part after power-on, with the strap as sampled (R13, R35, R47, R64, R86, R107, R132, R151, R164, R179,
R187). -/
def powerOnState (strap : Bool) : State :=
  { resetLine := false, clock := clockPowerOn, blockDue := false, mem := [], pagesA := 192, pagesB := 192
    pagesD := 640, feedA := feedReset .k48, feedB := feedReset .k48, sel := selectorPowerOn, scene := sceneReset
    outs := List.replicate 64 outReset, groups := 0, gcMute := false, muteLast := false, muteAccepted := false
    mutePin := false, mclkStopped := false, slots := List.replicate 64 0, cues := [], bus := busReset strap
    notices := noticesReset, freeCount := 0, pending := [] }

/-- The machine right after reset: power-on, with the strap low (DESIGN CHOICE, log 12) and an empty queue. -/
def State.reset : State := powerOnState false

end Sys2Proof.Machine
end

