-- ==== Sys2Proof/Machine/Ops.lean ====
section
/-!
DEFINITION. The named operations that every command shares: bytes and arithmetic, lanes and feeds, words of sample
memory, raising a notice, and answering a command on the control bus.
-/

namespace Sys2Proof

def Side.other : Side → Side
  | .a => .b
  | .b => .a

def Side.code : Side → Nat
  | .a => 0
  | .b => 1

def Lane.code : Lane → Nat
  | .l0 => 0
  | .l1 => 1

def Role.code : Role → Nat
  | .feedA => 0
  | .feedB => 1
  | .render => 2
  | .system => 3

end Sys2Proof

namespace Sys2Proof.Machine

open Sys2Proof

/-! ## Bytes and arithmetic -/

/-- `k` bytes of `n`, most significant first (spec/12). -/
def be : Nat → Nat → List Byte
  | 0, _ => []
  | k + 1, n => BitVec.ofNat 8 (n >>> (8 * k)) :: be k n

/-- `k` bytes of `x` in two's complement, most significant first (spec/12). -/
def beInt (k : Nat) (x : Int) : List Byte := be k (x % (2 ^ (8 * k) : Nat)).toNat

/-- The number that bytes spell, most significant first. -/
def ofBe (bs : List Byte) : Nat := bs.foldl (fun acc b => acc * 256 + b.toNat) 0

/-- One answer byte of a count: the largest value where the count exceeds it (R191). -/
def cap8 (n : Nat) : List Byte := be 1 (min n 255)

/-- Two answer bytes of a count: the largest value where the count exceeds it (R191). -/
def cap16 (n : Nat) : List Byte := be 2 (min n 65535)

/-- A bit as a number. -/
def bit (b : Bool) : Nat := if b then 1 else 0

/-- A byte made of bits, bit 0 first. -/
def bitsByte (bs : List Bool) : Byte := BitVec.ofNat 8 (bs.foldr (fun b acc => 2 * acc + bit b) 0)

/-- Saturate to 24 bits (spec/00, Conventions). -/
def sat24 (x : Int) : Int := if x < -8388608 then -8388608 else if 8388607 < x then 8388607 else x

/-- Round a product of a sample and a gain back to sample units, before saturation (R133, R134). -/
def scale22 (x : Int) : Int := (x + 2097152) >>> 22

/-! ## Lanes, feeds, roles -/

/-- A feed field of an answer: FFh is none (spec/12, Value codes). -/
def sideByte : Option Side → Byte
  | some .a => 0
  | some .b => 1
  | none => 0xFF

def LaneSet.get (s : LaneSet) : Lane → Bool
  | .l0 => s.l0
  | .l1 => s.l1

def LaneSet.add (s : LaneSet) : Lane → LaneSet
  | .l0 => { s with l0 := true }
  | .l1 => { s with l1 := true }

/-- Bit 0 lane 0, bit 1 lane 1. -/
def LaneSet.byte (s : LaneSet) : Byte := bitsByte [s.l0, s.l1]

def PerRole.get {α : Type} (p : PerRole α) : Role → α
  | .feedA => p.r0
  | .feedB => p.r1
  | .render => p.r2
  | .system => p.r3

def PerRole.set {α : Type} (p : PerRole α) (r : Role) (v : α) : PerRole α :=
  match r with
  | .feedA => { p with r0 := v }
  | .feedB => { p with r1 := v }
  | .render => { p with r2 := v }
  | .system => { p with r3 := v }

def State.feed (s : State) : Side → Feed
  | .a => s.feedA
  | .b => s.feedB

/-- The state with one feed replaced. -/
def State.setFeed (s : State) (x : Side) (f : Feed) : State :=
  { s with
    feedA := match x with | .a => f | .b => s.feedA
    feedB := match x with | .a => s.feedB | .b => f }

/-- The state with one feed changed. -/
def State.onFeed (s : State) (x : Side) (g : Feed → Feed) : State := s.setFeed x (g (s.feed x))

/-- The state with the selector changed. -/
def State.onSel (s : State) (g : Selector → Selector) : State := { s with sel := g s.sel }

def Feed.rx (f : Feed) : Lane → Receiver
  | .l0 => f.rx0
  | .l1 => f.rx1

def Feed.setRx (f : Feed) (l : Lane) (r : Receiver) : Feed :=
  match l with
  | .l0 => { f with rx0 := r }
  | .l1 => { f with rx1 := r }

def Feed.last (f : Feed) : Lane → Option Nat
  | .l0 => f.last0
  | .l1 => f.last1

def Feed.setLast (f : Feed) (l : Lane) (v : Option Nat) : Feed :=
  match l with
  | .l0 => { f with last0 := v }
  | .l1 => { f with last1 := v }

/-! ## Sample memory (spec/03) -/

/-- What a word that the list does not name holds: 0 with good parity, as the scrub leaves every word (R12, R36).
Before the scrub reaches it a word holds an unknown sample, which nothing reads (DESIGN CHOICE, log 12). -/
def defaultWord : MemWord := { sample := 0, good := true }

/-- The word at an address. -/
def Memory.read (m : Memory) (a : Nat) : MemWord :=
  match m with
  | [] => defaultWord
  | (b, w) :: rest => if b = a then w else Memory.read rest a

/-- The list with a word put at its place; a word equal to the default is left out. -/
def Memory.put (m : Memory) (a : Nat) (w : MemWord) : Memory :=
  match m with
  | [] => if w = defaultWord then [] else [(a, w)]
  | (b, v) :: rest =>
    if a < b then (if w = defaultWord then (b, v) :: rest else (a, w) :: (b, v) :: rest)
    else if a = b then (if w = defaultWord then rest else (a, w) :: rest)
    else (b, v) :: Memory.put rest a w

/-- Write a sample with good parity (R36). -/
def Memory.write (m : Memory) (a : Nat) (v : Sample) : Memory := m.put a { sample := v, good := true }

/-- A word's parity goes bad; its sample stays (R36). -/
def Memory.spoil (m : Memory) (a : Nat) : Memory := m.put a { sample := (m.read a).sample, good := false }

/-- Write 0 with good parity into every word of a page (R12). -/
def Memory.scrub (m : Memory) (page : Nat) : Memory :=
  m.filter fun c => c.1 / Config.pageWords != page

/-- Canonical form: addresses strictly rising, no entry equal to the default. -/
def Memory.wf : Memory → Bool
  | [] => true
  | [(_, w)] => w != defaultWord
  | (a, w) :: (b, v) :: rest => decide (a < b) && w != defaultWord && Memory.wf ((b, v) :: rest)

/-- Every listed word lies in the store (R36). -/
def Memory.inStore (m : Memory) : Bool := m.all fun c => decide (c.1 < Config.memWords)

/-- Does a read of a word fail (R41)? A word with good parity fails when both the read and its reread meet a passing
fault; a word with bad parity finds bad parity on both. -/
def readFails (passing : List Access) (reader : Reader) (index tap : Nat) (w : MemWord) : Bool :=
  !w.good || (passing.contains { reader := reader, index := index, tap := tap, reread := false }
    && passing.contains { reader := reader, index := index, tap := tap, reread := true })

/-! ## Notices (spec/11) -/

/-- The kind's number, which is its priority (spec/11). -/
def Kind.code : Kind → Nat
  | .memfault => 1 | .lanelost => 2 | .failover => 3 | .silence => 4 | .feeddone => 5 | .align => 6 | .slip => 7
  | .damage => 8 | .pacelate => 9 | .tracklimit => 10 | .cutrelease => 11 | .cue => 12 | .clip => 13 | .clock => 14
  | .mute => 15 | .busabandon => 16

/-- A queue with a notice taken: a new record at its kind's place, or the kind's record updated (R181). -/
def takeNotice (k : Kind) (detail : List Byte) (time : BitVec 32) : List Notice → List Notice
  | [] => [{ kind := k, count := 1, detail := detail, time := time }]
  | q :: qs =>
    if q.kind = k then { q with count := min (q.count + 1) 255, detail := detail, time := time } :: qs
    else if k.code < q.kind.code then { kind := k, count := 1, detail := detail, time := time } :: q :: qs
    else q :: takeNotice k detail time qs

/-- The notice unit with a notice entered in one role's queue; that role's alert line is low (R181, R182). -/
def Notices.enter (u : Notices) (r : Role) (k : Kind) (detail : List Byte) (time : BitVec 32) : Notices :=
  { u with
    queues := u.queues.set r (takeNotice k detail time (u.queues.get r))
    alertLow := u.alertLow.set r true }

/-- The notice unit with a notice routed: into one role's queue, or dropped (R180). -/
def Notices.route (u : Notices) (k : Kind) (detail : List Byte) (time : BitVec 32) : Notices :=
  match u.routing.getD (k.code - 1) none with
  | some r => u.enter r k detail time
  | none => u

/-- The low 32 bits of the house sample counter (R8). -/
def State.houseTime (s : State) : BitVec 32 := s.clock.counter.setWidth 32

/-- An owner raises a notice (R180). While the RESET line is asserted none is queued (R13). -/
def raise (k : Kind) (detail : List Byte) (s : State) : State :=
  { s with notices := if s.resetLine then s.notices else s.notices.route k detail s.houseTime }

/-- Raise a notice if a condition holds. -/
def raiseIf (c : Bool) (k : Kind) (detail : List Byte) (s : State) : State :=
  { s with notices := if c then (raise k detail s).notices else s.notices }

/-! ## Answers on the control bus (spec/10) -/

def ResultCode.code : ResultCode → Nat
  | .ok => 0 | .clamped => 1 | .late => 2 | .denied => 3 | .locked => 4 | .busy => 5 | .range => 6 | .format => 7
  | .full => 8 | .pending => 9 | .nothing => 10 | .notAligned => 11 | .noRoom => 12

/-- The role that a 7-bit address names under the sampled strap (R165). -/
def roleAt (strap : Bool) (addr : BitVec 7) : Option Role :=
  let base := if strap then 0x38 else 0x34
  if addr.toNat = base then some .feedA
  else if addr.toNat = base + 1 then some .feedB
  else if addr.toNat = base + 2 then some .render
  else if addr.toNat = base + 3 then some .system
  else none

/-- The interface with a command answered: the role's record DONE, its slot FREE (R170, R171). -/
def Bus.answered (b : Bus) (r : Role) (code : Byte) (res : ResultCode) (data : List Byte) : Bus :=
  { b with
    slots := b.slots.set r .free
    records := b.records.set r { state := .done, result := res, echo := code, data := data } }

/-- The interface with a command handed to its owner: the role's slot EXECUTING, its record RUNNING (R170). -/
def Bus.handedOver (b : Bus) (r : Role) (code : Byte) : Bus :=
  { b with
    slots := b.slots.set r (.executing code)
    records := b.records.set r { state := .running, result := .ok, echo := code, data := [] } }

/-- The code of the command a slot holds in execution, 00h when it holds none (R178). -/
def IntakeSlot.code : IntakeSlot → Byte
  | .executing c => c
  | _ => 0

/-- An owner completes the command that a role has in execution (R171). -/
def complete (r : Role) (res : ResultCode) (data : List Byte) (s : State) : State :=
  { s with bus := s.bus.answered r (s.bus.slots.get r).code res data }

/-- The interface answers a command itself, before any owner sees it (R170). -/
def answer (r : Role) (code : Byte) (res : ResultCode) (s : State) : State :=
  { s with bus := s.bus.answered r code res [] }

/-- `k` free bytes of an answer, from the `at`-th free value on (log 14). -/
def freeBytes (start : Nat) : Nat → List Byte
  | 0 => []
  | k + 1 => Config.freeByte start :: freeBytes (start + 1) k

/-- The state with `k` free values used. -/
def usedFree (k : Nat) (s : State) : State := { s with freeCount := s.freeCount + k }

end Sys2Proof.Machine
end

