-- ==== Sys2Proof/Machine/Operands.lean ====
section
/-!
DEFINITION. Reading a command's payload: its fields, the value codes and the lists of entries (spec/12).
-/

namespace Sys2Proof.Machine

open Sys2Proof

/-- The payload byte at an offset. -/
def u8 (p : List Byte) (off : Nat) : Nat := (p.getD off 0).toNat

/-- A field of `len` bytes at an offset, read as one number (R190). -/
def field (p : List Byte) (off len : Nat) : Nat := ofBe ((p.drop off).take len)

/-- A signed field of three bytes at an offset (spec/12). -/
def fieldInt (p : List Byte) (off : Nat) : Int := (BitVec.ofNat 24 (field p off 3)).toInt

/-! ## Value codes (spec/12) -/

def sideOf : Nat → Option Side
  | 0 => some .a
  | 1 => some .b
  | _ => none

def boolOf : Nat → Option Bool
  | 0 => some false
  | 1 => some true
  | _ => none

def modeOf : Nat → Option FeedMode
  | 0 => some .streaming
  | 1 => some .single
  | 2 => some .burst
  | _ => none

def rateOf : Nat → Option Rate
  | 0 => some .k48
  | 1 => some .k96
  | _ => none

def speedOf : Nat → Option Speed
  | 0 => some .one
  | 1 => some .pullUp
  | 2 => some .pullDown
  | 3 => some .up25
  | 4 => some .down24
  | _ => none

def sourceOf : Nat → Option ClockSource
  | 0 => some .internal
  | 1 => some .external
  | _ => none

def cueActionOf : Nat → Option CueAction
  | 0 => some .take
  | 1 => some .groupMute
  | 2 => some .groupUnmute
  | 3 => some .switch
  | 4 => some .mark
  | _ => none

/-- A NOTEROUTE target: a role, or FFh for none; the outer option is a target with no meaning. -/
def targetOf : Nat → Option (Option Role)
  | 0 => some (some .feedA)
  | 1 => some (some .feedB)
  | 2 => some (some .render)
  | 3 => some (some .system)
  | 255 => some none
  | _ => none

def FeedMode.code : FeedMode → Nat
  | .streaming => 0 | .single => 1 | .burst => 2

def Rate.code : Rate → Nat
  | .k48 => 0 | .k96 => 1

def Speed.code : Speed → Nat
  | .one => 0 | .pullUp => 1 | .pullDown => 2 | .up25 => 3 | .down24 => 4

def ClockSource.code : ClockSource → Nat
  | .internal => 0 | .external => 1

def ClockState.code : ClockState → Nat
  | .internal => 0 | .following => 1 | .holdover => 2

def Phase.code : Phase → Nat
  | .starting => 0 | .running => 1

def FeedState.code : FeedState → Nat
  | .idle => 0 | .seeking => 1 | .primed => 2 | .running => 3 | .ending => 4 | .complete => 5

def ProgRole.code : ProgRole → Nat
  | .none => 0 | .leader => 1 | .standby => 2 | .outgoing => 3

/-- Reason code; none is 0. -/
def reasonCode : Option Reason → Nat
  | none => 0
  | some .count => 1
  | some .sourceEnd => 2
  | some .stopped => 3
  | some .laneLost => 4

def SelState.code : SelState → Nat
  | .silent => 0
  | .onair .a => 1 | .onair .b => 2
  | .xfade .a => 3 | .xfade .b => 4
  | .fade .a => 5 | .fade .b => 6
  | .rise .a => 7 | .rise .b => 8

def SilenceCause.code : SilenceCause → Nat
  | .loss => 0 | .stop => 1 | .fadeBack => 2 | .abandon => 3 | .ended => 4

def PendState.code : PendState → Nat
  | .free => 0 | .building => 1 | .sealed _ => 2

def CueAction.code : CueAction → Nat
  | .take => 0 | .groupMute => 1 | .groupUnmute => 2 | .switch => 3 | .mark => 4

def RecordState.code : RecordState → Nat
  | .empty => 0 | .running => 1 | .done => 2

/-! ## Records in payloads -/

/-- The largest channel count of a feed rate and a number of lanes (R33). -/
def mostChannels (rate : Rate) (lanes : Nat) : Nat :=
  match rate with
  | .k48 => 48 * lanes
  | .k96 => 24 * lanes

/-- Lanes used, n, D and W within their bounds: part of check 1 of R33. -/
def Setup.boundsOk (u : Setup) : Bool :=
  (u.lanes == 1 || u.lanes == 2) && decide (u.lanes ≤ u.n) && decide (u.n ≤ mostChannels u.rate u.lanes) &&
    decide (9 ≤ u.dExp) && decide (u.dExp ≤ 13) && decide (2 ≤ u.wExp) && decide (u.wExp ≤ 5)

/-- The setup that a FEEDSET payload names, if every field lies in its list and n within its bounds: check 1 of
R33. -/
def setupOf (p : List Byte) : Option Setup :=
  match modeOf (u8 p 1), rateOf (u8 p 2), speedOf (u8 p 3) with
  | some mode, some rate, some speed =>
    let u : Setup :=
      { mode := mode, rate := rate, speed := speed, n := u8 p 5, lanes := u8 p 4, dExp := u8 p 6, wExp := u8 p 7 }
    if u.boundsOk then some u else none
  | _, _, _ => none

/-- FEEDSET payload bytes 1 to 7 of a setup (spec/12, FEEDSTAT record). -/
def Setup.bytes (u : Setup) : List Byte :=
  be 1 u.mode.code ++ be 1 u.rate.code ++ be 1 u.speed.code ++ be 1 u.lanes ++ be 1 u.n ++ be 1 u.dExp ++ be 1 u.wExp

/-- The route entries of a ROUTESET payload: input, output, target, k, as sent. -/
def routeEntries : List Byte → List RouteEntry
  | a :: b :: c :: d :: e :: f :: rest =>
    { input := a.toNat, output := b.toNat, target := fieldInt [c, d, e] 0, k := f.toNat } :: routeEntries rest
  | _ => []

/-- The pairs of a payload: ROUTEDROP's keys (input, output), NOTEROUTE's route pairs (kind, target). -/
def bytePairs : List Byte → List (Nat × Nat)
  | a :: b :: rest => (a.toNat, b.toNat) :: bytePairs rest
  | _ => []

/-- The index, counted from 0, of the first item that satisfies `p`. -/
def firstIndex {α : Type} (p : α → Bool) : List α → Option Nat
  | [] => none
  | x :: xs => if p x then some 0 else (firstIndex p xs).map (· + 1)

end Sys2Proof.Machine
end

