-- ==== Sys2Proof/Machine/Flags.lean ====
section
/-!
DEFINITION. What the part derives from its state and does not store: geometry, ratios, fills, the leader and the
standby, the house mute and the mute targets.
-/

namespace Sys2Proof.Machine

open Sys2Proof

/-! ## Feed setup -/

/-- Ring depth D in frames. -/
def Setup.depth (u : Setup) : Nat := 2 ^ u.dExp

/-- Slots of the ring, D/32. -/
def Setup.slotCount (u : Setup) : Nat := u.depth / 32

/-- Target fill T = D/2. -/
def Setup.target (u : Setup) : Nat := u.depth / 2

/-- Watch period W in block events. -/
def Setup.watchLen (u : Setup) : Nat := 2 ^ u.wExp

/-- Is a lane used by the setup (R14)? -/
def Setup.uses (u : Setup) : Lane → Bool
  | .l0 => true
  | .l1 => u.lanes == 2

/-- Channels of a lane: all of them on one lane; ceil(n/2) and floor(n/2) on two (R14). -/
def Setup.laneCount (u : Setup) : Lane → Nat
  | .l0 => if u.lanes = 2 then (u.n + 1) / 2 else u.n
  | .l1 => if u.lanes = 2 then u.n / 2 else 0

/-- First channel of a lane (R14). -/
def Setup.firstChannel (u : Setup) : Lane → Nat
  | .l0 => 0
  | .l1 => u.laneCount .l0

/-- The used lanes that a set holds not. -/
def Setup.lacking (u : Setup) (s : LaneSet) : LaneSet :=
  { l0 := !s.l0, l1 := u.uses .l1 && !s.l1 }

/-- Does a set hold every used lane? -/
def Setup.coveredBy (u : Setup) (s : LaneSet) : Bool := u.lacking s == noLanes

/-- 2^28 times the base: the feed rate over the house rate class (R66). -/
def baseUnits (feed house : Rate) : Nat :=
  match feed, house with
  | .k48, .k96 => 134217728
  | .k96, .k48 => 536870912
  | _, _ => 268435456

/-- Speed factor as a fraction (R66). -/
def Speed.num : Speed → Nat
  | .one => 1 | .pullUp => 1001 | .pullDown => 1000 | .up25 => 25 | .down24 => 24

def Speed.den : Speed → Nat
  | .one => 1 | .pullUp => 1000 | .pullDown => 1001 | .up25 => 24 | .down24 => 25

/-- Nominal ratio: floor(2^28 × base × s_num / s_den) (R66). -/
def Setup.nominal (u : Setup) (house : Rate) : Nat := baseUnits u.rate house * u.speed.num / u.speed.den

/-- The factor q of the drain check (R33). -/
def drainFactor (rNom : Nat) : Nat := if rNom ≤ 268435456 then 1 else if rNom ≤ 536870912 then 2 else 3

/-- Check 2 of R33: each watch period spans at least two blocks of feed time. -/
def Setup.watchOk (u : Setup) (house : Rate) : Bool := 2 * 268435456 ≤ u.watchLen * u.nominal house

/-- Check 3 of R33: a loss is confirmed before a full ring drains. -/
def Setup.drainOk (u : Setup) (house : Rate) : Bool :=
  2 * u.watchLen * 32 * drainFactor (u.nominal house) + 64 ≤ u.target

/-- Is the feed's base 2, so that its points pass the half-band stage (R83)? -/
def Setup.isDouble (u : Setup) (house : Rate) : Bool := baseUnits u.rate house == 536870912

/-! ## Feed -/

/-- SEEKING, PRIMED, RUNNING or ENDING: intake acts (R16). -/
def Feed.inPlay (f : Feed) : Bool :=
  match f.st with
  | .seeking | .primed | .running | .ending => true
  | .idle | .complete => false

/-- RUNNING or ENDING: the feed is read (R68). -/
def Feed.isRead (f : Feed) : Bool :=
  match f.st with
  | .running | .ending => true
  | _ => false

/-- IDLE or COMPLETE (R11, R34). -/
def Feed.atRest (f : Feed) : Bool := !f.inPlay

/-- The standby: RUNNING and not leading nor being faded (R87). -/
def Feed.isStandby (f : Feed) : Bool := f.st == .running && f.role == .standby

/-- The frame of the count's end, if the PLAY has one. -/
def Feed.countEnd (f : Feed) : Option Nat := if f.count = 0 then none else some (f.startPos + f.count - 1)

/-- Last needed frame (R24). -/
def Feed.lastNeeded (f : Feed) : Option Nat :=
  match f.sourceEnd, f.countEnd with
  | some e, some c => some (min e c)
  | some e, none => some e
  | none, c => c

/-- The feed's intake has ended (R24). -/
def Feed.intakeEnded (f : Feed) : Bool :=
  match f.lastNeeded with
  | some e => e < f.h
  | none => false

/-- The feed has reached its end (R55). -/
def Feed.atEnd (f : Feed) : Bool :=
  match f.lastNeeded with
  | some e => e < f.rs.i
  | none => false

/-- The reason of a feed's own end: COUNT if the last needed frame is S + N - 1, else SOURCE_END (R55). -/
def Feed.endReason (f : Feed) : Reason := if f.lastNeeded = f.countEnd then .count else .sourceEnd

/-- Fill F = max(0, h - i) (R23). -/
def Feed.fill (f : Feed) : Nat := f.h - f.rs.i

/-- Slot of a frame or stamp (R18). -/
def Feed.slotAt (f : Feed) (frame : Nat) : Slot := f.ring.getD (frame / 32 % f.setup.slotCount) emptySlot

/-- The ring with one stamp's slot replaced. -/
def Feed.setSlot (f : Feed) (stamp : Nat) (v : Slot) : Feed :=
  { f with ring := f.ring.set (stamp / 32 % f.setup.slotCount) v }

/-- May a slot be reused: every frame of its block lies below i - 8 (R18). -/
def Feed.reusable (f : Feed) (v : Slot) : Bool :=
  match v.stamp with
  | some t => t + 31 + 8 < f.rs.i
  | none => true

/-! ## Geometry of sample memory (R37 to R39) -/

def State.pages (s : State) : Side → Nat
  | .a => s.pagesA
  | .b => s.pagesB

/-- Lowest word of a feed's region (R37). -/
def State.ringBase (s : State) : Side → Nat
  | .a => (1024 - s.pagesD - s.pagesB - s.pagesA) * Config.pageWords
  | .b => (1024 - s.pagesD - s.pagesB) * Config.pageWords

/-- Lowest word of the delay region (R37). -/
def State.delayBase (s : State) : Nat := (1024 - s.pagesD) * Config.pageWords

/-- The word of channel c, frame f of a feed (R14, R38). -/
def State.ringAddr (s : State) (x : Side) (c frame : Nat) : Nat :=
  s.ringBase x + c * (s.feed x).setup.depth + frame % (s.feed x).setup.depth

/-- Does a setup fit a region of so many pages (R38)? -/
def Setup.fits (u : Setup) (pages : Nat) : Bool := u.depth * u.n ≤ pages * Config.pageWords

/-- The feed is placed (R38). -/
def State.placed (s : State) (x : Side) : Bool := (s.feed x).setup.fits (s.pages x)

/-- The largest power of two, of 16 times 2 to at most k, that is no greater than w; 0 if there is none. -/
def largestPow (w : Nat) : Nat → Nat
  | 0 => if 16 ≤ w then 16 else 0
  | k + 1 => if 16 * 2 ^ (k + 1) ≤ w then 16 * 2 ^ (k + 1) else largestPow w k

/-- Delay capacity: the largest power of two no greater than 16 × pages_D, at most 16,384 (R39). -/
def delayCapacity (pagesD : Nat) : Nat := largestPow (16 * pagesD) 10

/-- Maximum delay (R39). -/
def maxDelay (pagesD : Nat) : Nat := delayCapacity pagesD - 1

/-! ## House clock -/

def State.starting (s : State) : Bool := s.clock.phase == .starting

/-- Route capacity C (R10). -/
def routeCapacity : Rate → Nat
  | .k48 => 2048
  | .k96 => 1024

/-- Pending route limit 3C/4 (R10). -/
def pendingLimit (r : Rate) : Nat := 3 * routeCapacity r / 4

/-! ## Selector -/

/-- The leader that the selector's state names (R87). DESIGN CHOICE (log 44): in a crossfade it is the incoming feed
from the block event that begins it (R94), also before its first house sample. -/
def SelState.leader : SelState → Option Side
  | .silent => none
  | .onair x | .rise x | .fade x => some x
  | .xfade x => some x.other

/-- Is a transition running (R101, R104)? -/
def SelState.inTransition : SelState → Bool
  | .rise _ | .fade _ | .xfade _ => true
  | .silent | .onair _ => false

/-- Length L of a transition (R89). -/
def Selector.len (v : Selector) : Nat := 2 ^ v.kx

/-- House samples of the transition already formed (R98). -/
def Selector.formed (v : Selector) : Nat := if v.abandoned then v.n0 + v.j else v.n

/-- The transition's last house sample has been formed, and its end has not been taken (R89, R98). -/
def Selector.over (v : Selector) : Bool := v.state.inTransition && v.len ≤ v.formed

/-- The feed that leads at this moment for the servo: in a crossfade whose first house sample has not been formed it
is still the outgoing feed, and a rise that has not been formed leads from its first house sample (R72, R87). -/
def Selector.servoLeader (v : Selector) : Option Side :=
  match v.state with
  | .silent => none
  | .onair x | .fade x => some x
  | .rise x => if v.formed = 0 then none else some x
  | .xfade x => if v.formed = 0 then some x else some x.other

/-- The standby, if there is one (R87). -/
def State.standby (s : State) : Option Side :=
  if s.feedA.isStandby then some .a else if s.feedB.isStandby then some .b else none

/-- Low 16 bits, as two bytes of a notice detail (spec/12). -/
def low16 (n : Nat) : List Byte := be 2 (n % 65536)

/-! ## Output stage -/

/-- House mute (R144). -/
def State.houseMute (s : State) : Bool := s.gcMute || s.muteAccepted

/-- Is a group in the mask muted (R138)? -/
def OutRec.groupMuted (o : OutRec) (groups : Byte) : Bool := (o.mask &&& groups) != 0

/-- Does anything mute the output (R138)? -/
def OutRec.muted (o : OutRec) (groups : Byte) (house : Bool) : Bool :=
  o.ownMute || o.groupMuted groups || house || o.pendingDelay.isSome

/-- Mute target (R138). -/
def OutRec.muteTarget (o : OutRec) (groups : Byte) (house : Bool) : Nat :=
  if o.muted groups house then 0 else Config.unity

/-- The house mute byte of PROGSTAT and OUTSTAT (spec/12). -/
def State.houseMuteByte (s : State) : Byte := bitsByte [s.gcMute, s.muteLast, s.muteAccepted, s.houseMute]

end Sys2Proof.Machine
end

