-- ==== Sys2Proof/Machine/Feed.lean ====
section
/-!
DEFINITION. Shared operations on one feed unit and its resampler: clearing the intake, taking a PLAY, completing,
the pace state's rest, the read position (spec/02, spec/04, spec/05).
-/

namespace Sys2Proof.Machine

open Sys2Proof

/-- The intake state cleared, with first stamp and head given (R23, R34). -/
def Feed.clearIntake (f : Feed) (h0 : Nat) : Feed :=
  { f with
    ring := List.replicate f.setup.slotCount emptySlot, h := h0, s0 := h0, last0 := none, last1 := none
    sourceEnd := none, pace := paceIdle, watch := watchReset }

/-- The nominal ratio derived anew and stored: r becomes it, the integrator, the servo error and the clamped mark
are cleared, the read position stays (R67). -/
def Resampler.rederive (v : Resampler) (rNom : Nat) : Resampler :=
  { v with rNom := rNom, r := rNom, acc := 0, servoErr := 0, clamped := false }

def Feed.rederive (f : Feed) (house : Rate) : Feed := { f with rs := f.rs.rederive (f.setup.nominal house) }

/-- A setup record replaced, the intake cleared and the nominal ratio derived (R34). DESIGN CHOICE (log 55): the lane
receivers stay as they are, that of a lane which the new setup does not use too. -/
def Feed.install (f : Feed) (u : Setup) (house : Rate) : Feed :=
  (Feed.clearIntake { f with setup := u } 0).rederive house

/-- The resampler at the start of a PLAY: r_nom, integrator 0, frame S with phase 0 (R50). -/
def Resampler.start (v : Resampler) (pos : Nat) : Resampler := 
  { v with r := v.rNom, acc := 0, i := pos, phi := 0, held := false }

/-- A PLAY taken (R50). -/
def Feed.takePlay (f : Feed) (p : PlayParams) : Feed :=
  { f.clearIntake (32 * (p.pos / 32)) with
    startPos := p.pos, count := p.count, ending := none, completion := none, st := .seeking, role := .none
    rs := f.rs.start p.pos }

/-- Is the pace state active (R25)? -/
def Feed.paceActive (f : Feed) (starting : Bool) : Bool :=
  f.setup.mode != .streaming && f.inPlay && !starting && !f.intakeEnded

/-- Has a placement raised the fill from `before` to the target or beyond (R28)? -/
def Feed.fillRaised (f : Feed) (before : Nat) : Bool := decide (before < f.fill ∧ f.setup.target ≤ f.fill)

/-- The pace state after a placement, where the fill was `before`: at rest once it is not active (R25), and in BURST
mode where the placement has raised the fill to the target or beyond (R28). -/
def Feed.paceSettled (f : Feed) (before : Nat) (starting : Bool) : Feed :=
  { f with
    pace := if !f.paceActive starting || (f.setup.mode == .burst && f.fillRaised before) then paceIdle else f.pace }

/-- A feed entering COMPLETE: the record, no ending reason, no role, the pace line negated (R57). -/
def Feed.completed (f : Feed) (reason : Reason) : Feed :=
  { f with
    st := .complete, role := .none, ending := none, completion := some { reason := reason, final := f.rs.i }
    pace := paceIdle }

/-- The selector told that a feed is no more: a standby's alignment is withdrawn and a cold flag that names it is
cleared (R87, R91). -/
def Selector.dropped (v : Selector) (x : Side) (wasStandby : Bool) : Selector :=
  { v with aligned := v.aligned && !wasStandby, cold := if v.cold = some x then none else v.cold }

/-- A feed goes COMPLETE and FEEDDONE is raised (R57). -/
def completeFeed (x : Side) (reason : Reason) (s : State) : State :=
  raise .feeddone (be 1 x.code ++ be 1 (reasonCode (some reason)) ++ low16 (s.feed x).rs.i)
    ((s.setFeed x ((s.feed x).completed reason)).onSel fun v => v.dropped x (s.feed x).isStandby)

/-- A feed goes ENDING with a reason (R54). -/
def setEnding (x : Side) (reason : Reason) (s : State) : State :=
  s.onFeed x fun f => { f with st := .ending, ending := some reason }

/-- A feed's program role changed by the selector (R54). -/
def setRole (x : Side) (role : ProgRole) (s : State) : State := s.onFeed x fun f => { f with role := role }

/-- The read position of a cold switch: (h - T, 0), or (S, 0) if that lies below S; r_nom and 0 (R71). -/
def Feed.repositioned (f : Feed) : Feed :=
  { f with
    rs := { f.rs with
      i := if f.h < f.startPos + f.setup.target then f.startPos else f.h - f.setup.target
      phi := 0, held := false, r := f.rs.rNom, acc := 0 } }

/-- The pair (i, φ) after an advance by r; an advance beyond the last frame makes it (2^40 - 1, 0), where the feed
holds at every later advance (R69). -/
def Resampler.advanced (v : Resampler) : Resampler :=
  if v.held then v
  else if Config.posEnd - 1 < v.i + (v.phi + v.r) / Config.ratioUnity then
    { v with i := Config.posEnd - 1, phi := 0, held := true }
  else
    { v with i := v.i + (v.phi + v.r) / Config.ratioUnity, phi := (v.phi + v.r) % Config.ratioUnity }

/-- A slaved read position (R70). A feed that holds at the last frame does so while it stands there (log 17). -/
def Resampler.slaved (v : Resampler) (pos phase : Nat) : Resampler :=
  { v with i := pos, phi := phase, held := v.held && decide (pos = Config.posEnd - 1 ∧ phase = 0) }

/-! ## Playback state after FLUSH -/

/-- FLUSH of a feed unit and its resampler (R35, R65, R86): S and N, the setup and the lane receivers are kept. -/
def Feed.flushed (f : Feed) (house : Rate) : Feed :=
  { f.clearIntake 0 with
    st := .idle, role := .none, ending := none, completion := none, pendingPlay := none
    rs := resamplerReset (f.setup.nominal house) }

end Sys2Proof.Machine
end

