-- ==== Sys2Proof/Machine/Selector.lean ====
section
/-!
DEFINITION. Shared operations of the on-air selector: transitions, failover, the steps of ONAIR and of an on-air
STOP, alignment, taking PRIMED feeds (spec/06).
-/

namespace Sys2Proof.Machine

open Sys2Proof

/-- The selector with a transition begun: count 0, the policy's kx, no flag and no mark (R89). -/
def Selector.start (v : Selector) (st : SelState) : Selector :=
  { v with state := st, n := 0, kx := v.policyKx, abandoned := false, n0 := 0, j := 0, cold := none }

/-- The selector come to rest in a state: counts 0, no flag and no mark (R89, log 16). -/
def Selector.rest (v : Selector) (st : SelState) : Selector :=
  { v with state := st, n := 0, abandoned := false, n0 := 0, j := 0, cold := none }

/-- The crossfade from x to the other feed begins: x OUTGOING, the other LEADER and standby no more (R87, R91). -/
def beginXfade (x : Side) (s : State) : State :=
  (setRole x .outgoing (setRole x.other .leader s)).onSel fun v => { v.start (.xfade x) with aligned := false }

/-- The fade of x begins, for a cause, with or without a cold flag (R94, R100). -/
def beginFade (x : Side) (cause : SilenceCause) (cold : Option Side) (s : State) : State :=
  s.onSel fun v => { v.start (.fade x) with cold := cold, fadeCause := cause }

/-- The rise of x begins (R92, R101). -/
def beginRise (x : Side) (s : State) : State :=
  (s.onFeed x fun f => { f with st := .running, role := .leader }).onSel fun v => v.start (.rise x)

/-- The selector enters SILENT and SILENCE is raised with the feed last heard (R105); FFh says that none was (log 26).
-/
def enterSilent (heard : Option Side) (cause : SilenceCause) (s : State) : State :=
  raise .silence ([sideByte heard] ++ be 1 cause.code ++ low16 s.sel.pos) (s.onSel fun v => v.rest .silent)

/-- The outgoing feed at a crossfade's end: an ENDING one completes with its reason; a RUNNING one becomes STANDBY,
not aligned, or completes if it has reached its own end (R55, R89). -/
def finishOutgoing (x : Side) (s : State) : State :=
  match (s.feed x).st with
  | .ending => completeFeed x ((s.feed x).ending.getD .stopped) s
  | .running =>
    if (s.feed x).atEnd then completeFeed x (s.feed x).endReason s
    else (setRole x .standby s).onSel fun v => { v with aligned := false, fresh := s.blockDue }
  | _ => s

/-- The end of the transition whose last house sample has been formed (R89, R96, R98). -/
def endTransition (s : State) : State :=
  match s.sel.state with
  | .rise x => s.onSel fun v => v.rest (.onair x)
  | .xfade x =>
    if s.sel.abandoned then
      enterSilent (some x.other) .abandon
        (finishOutgoing x (completeFeed x.other ((s.feed x.other).ending.getD .stopped) s))
    else (finishOutgoing x s).onSel fun v => v.rest (.onair x.other)
  | .fade x =>
    match s.sel.cold with
    | none => enterSilent (some x) s.sel.fadeCause (completeFeed x ((s.feed x).ending.getD .stopped) s)
    | some y =>
      (((completeFeed x ((s.feed x).ending.getD .stopped) s).onFeed y fun f =>
        { f.repositioned with role := .leader }).onSel fun v => { v.start (.rise y) with aligned := false })
  | _ => s

/-- A transition whose last house sample has been formed ends before anything else is taken (log 5). -/
def caughtUp (s : State) : State := if s.sel.over then endTransition s else s

/-! ## Failover and second failures -/

/-- The leader x of ONAIR_x is confirmed lost (R94). -/
def failover (x : Side) (s : State) : State :=
  if (s.feed x.other).isStandby then
    if s.sel.aligned then
      raise .failover (bitsByte [x == .b, x.other == .b, false] :: 0 :: low16 s.sel.pos)
        (setEnding x .laneLost (beginXfade x s))
    else
      raise .failover (bitsByte [x == .b, x.other == .b, true] :: 0 :: low16 s.sel.pos)
        (setEnding x .laneLost (beginFade x .loss (some x.other) s))
  else setEnding x .laneLost (beginFade x .loss none s)

/-- The incoming leader y of a crossfade is lost or stopped: the crossfade is abandoned (R98). -/
def abandonXfade (y : Side) (reason : Reason) (s : State) : State :=
  (setEnding y reason s).onSel fun v => { v with abandoned := true, n0 := v.n, j := 0 }

/-- The rising feed x is lost or stopped: the rise is faded back (R99). With no house sample of the rise formed nothing
of x has been heard, so the feed last heard is the one before it (R105). -/
def fadeBack (x : Side) (reason : Reason) (s : State) : State :=
  if s.sel.n = 0 then enterSilent s.sel.lastHeard .fadeBack (completeFeed x reason (setEnding x reason s))
  else
    (setEnding x reason s).onSel fun v =>
      { v with state := .fade x, n := v.len - v.n, cold := none, fadeCause := .fadeBack }

/-- A confirmed loss of a RUNNING feed that leads or is outgoing, taken by the selector (R93). -/
def selectorLoss (x : Side) (s : State) : State :=
  match s.sel.state with
  | .onair l => if l = x then failover x s else s
  | .rise l => if l = x then fadeBack x .laneLost s else s
  | .xfade o => if o = x then setEnding x .laneLost s else abandonXfade x .laneLost s
  | _ => s

/-- A confirmed loss of a feed's lanes, by its state and role (R58). -/
def lossTaken (x : Side) (s : State) : State :=
  match (s.feed x).st with
  | .seeking | .primed => completeFeed x .laneLost s
  | .running => if (s.feed x).role = .standby then completeFeed x .laneLost s else selectorLoss x s
  | _ => s

/-! ## STOP on air -/

/-- What the selector does with an on-air STOP at a block event, and the byte that says so (R100). -/
def stopOnAir (x : Side) (handover : Bool) (s : State) : Byte × State :=
  match s.sel.state with
  | .onair _ =>
    if handover && (s.feed x.other).isStandby && s.sel.aligned then (3, setEnding x .stopped (beginXfade x s))
    else (4, setEnding x .stopped (beginFade x .stop none s))
  | .rise _ => (4, fadeBack x .stopped s)
  | .xfade o => if o = x then (4, setEnding x .stopped s) else (4, abandonXfade x .stopped s)
  | _ => (0, s)

/-- A role's awaiting STOP of feed x taken: by the selector if the feed is still RUNNING as LEADER or OUTGOING (R100),
else by the state that the event before it left (R61). DESIGN CHOICE (log 25): a feed that ended, was acknowledged, was
played again and runs once more is stopped. -/
def stopTaken (r : Role) (x : Side) (handover : Bool) (s : State) : State :=
  if (s.feed x).st = .running then
    if (s.feed x).role = .leader ∨ (s.feed x).role = .outgoing then
      match stopOnAir x handover s with
      | (d, t) => complete r (if d = 0 then .nothing else .ok) [d] t
    else complete r .ok [2] (completeFeed x .stopped s)
  else complete r .nothing [0] s

/-! ## ONAIR -/

/-- The steps of ONAIR for a feed field (R101, R102). -/
def onairSteps (feed : Nat) (s : State) : ResultCode × State :=
  match sideOf feed with
  | none => (.range, s)
  | some x =>
    match s.sel.state with
    | .xfade _ | .fade _ | .rise _ => (.busy, s)
    | .onair l =>
      if l = x then (.nothing, s)
      else if (s.feed x).isStandby && s.sel.aligned then (.ok, beginXfade l s)
      else (.notAligned, s)
    | .silent =>
      if (s.feed x).isStandby then
        (.ok, (beginRise x (if s.sel.aligned then s else s.onFeed x Feed.repositioned)).onSel fun v =>
          { v with aligned := false })
      else (.notAligned, s)

/-! ## Alignment -/

/-- Does the ring hold block b with its stamp, GOOD? -/
def Feed.holdsGood (f : Feed) (b : Nat) : Bool :=
  let v := f.slotAt (32 * b)
  v.stamp == some (32 * b) && v.state == .good

/-- Every block from floor((i - 4)/32) to floor((i + 64)/32) is GOOD in the ring (R91). A window that reaches below
frame 0 names a block that no ring holds. -/
def Feed.windowGood (f : Feed) (i : Nat) : Bool :=
  4 ≤ i && (List.range ((i + 64) / 32 + 1 - (i - 4) / 32)).all fun k => f.holdsGood ((i - 4) / 32 + k)

/-- Is the standby y aligned (R91)? -/
def State.judgesAligned (s : State) (y : Side) : Bool :=
  (match s.sel.state.leader with
    | some l => (s.feed y).rs.rNom == (s.feed l).rs.rNom && (s.feed y).setup.n == (s.feed l).setup.n
    | none => true) && (s.feed y).windowGood s.sel.pos

/-- The aligned flag set for the standby y, with ALIGN raised if it changes (R91). -/
def setAligned (y : Side) (v : Bool) (s : State) : State :=
  raiseIf (s.sel.aligned != v) .align (be 1 y.code ++ be 1 (bit v) ++ low16 s.sel.pos)
    (s.onSel fun u => { u with aligned := v })

/-- The judgement of alignment at a block event (R91). A standby that became so at this block event's house sample is
judged at the next block event (R89, log 29). -/
def judgeAlignment (s : State) : State :=
  match s.standby with
  | some y =>
    if s.sel.fresh then s.onSel fun v => { v with fresh := false } else setAligned y (s.judgesAligned y) s
  | none => s.onSel fun v => { v with fresh := false }

/-! ## Taking PRIMED feeds -/

/-- A PRIMED feed becomes RUNNING STANDBY: it takes the program position and phase and is not aligned (R53, R91). -/
def takeStandby (x : Side) (s : State) : State :=
  (s.onFeed x fun f =>
    { f with st := .running, role := .standby, rs := f.rs.slaved s.sel.pos s.sel.phase }).onSel fun v =>
      { v with aligned := false }

/-- The answer to the offers of PRIMED feeds at a block event (R92). -/
def takePrimed (s : State) : State :=
  match s.sel.state with
  | .silent =>
    match s.feedA.st == .primed, s.feedB.st == .primed with
    | true, true => takeStandby s.sel.preferred.other (beginRise s.sel.preferred s)
    | true, false => beginRise .a s
    | false, true => beginRise .b s
    | false, false => s
  | .onair x | .rise x => if (s.feed x.other).st = .primed then takeStandby x.other s else s
  | _ => s

end Sys2Proof.Machine
end

