-- ==== Sys2Proof/Machine/Frame.lean ====
section
/-!
DEFINITION. The control bus interface's judgement of a write frame, and the way a taken command reaches its owner
(R165 to R170, R190).
-/

namespace Sys2Proof.Machine

open Sys2Proof

/-- The codes of the table of spec/12. -/
def knownCode (c : Nat) : Bool :=
  (1 ≤ c && c ≤ 3) || (0x10 ≤ c && c ≤ 0x14) || (0x20 ≤ c && c ≤ 0x26) || (0x30 ≤ c && c ≤ 0x32) ||
    (0x40 ≤ c && c ≤ 0x49)

/-- The five commands whose first payload byte is the feed field (R170, step 3). -/
def isFeedCode (c : Nat) : Bool := 0x10 ≤ c && c ≤ 0x14

/-- May a role issue a command at all (R170, the table of rights)? -/
def mayIssue (c : Nat) : Role → Bool
  | .feedA | .feedB => (1 ≤ c && c ≤ 3) || isFeedCode c || c == 0x26 || c == 0x32 || c == 0x43
  | .render => (1 ≤ c && c ≤ 3) || c == 0x14 || (0x20 ≤ c && c ≤ 0x26) || (0x30 ≤ c && c ≤ 0x32) || c == 0x43
  | .system => (1 ≤ c && c ≤ 3) || isFeedCode c || c == 0x26 || (0x30 ≤ c && c ≤ 0x32) || (0x40 ≤ c && c ≤ 0x49)

/-- A feed controller naming the other feed (R170, step 3). -/
def foreignFeed : Role → Side → Bool
  | .feedA, .b => true
  | .feedB, .a => true
  | _, _ => false

/-- The judgement of the feed field (R170, step 3). -/
def judgeFeedField (c : Nat) (r : Role) (p : List Byte) : Option ResultCode :=
  if isFeedCode c then
    match p with
    | [] => some .format
    | b :: _ =>
      match sideOf b.toNat with
      | none => some .range
      | some x => if c != 0x14 && foreignFeed r x then some .denied else none
  else none

/-- The judgement of a frame that carried exactly its payload: an outcome of the first four steps, or none when the
command is handed to its owner (R168, R170). -/
def judge (c : Nat) (r : Role) (p : List Byte) (starting : Bool) : Option ResultCode :=
  if 250 < p.length then some .format
  else if !knownCode c then some .format
  else if !mayIssue c r then some .denied
  else
    match judgeFeedField c r p with
    | some res => some res
    | none => if starting && !(1 ≤ c && c ≤ 3) then some .busy else none

/-- The command handed to its owner: the slot EXECUTING, the record RUNNING (R170, step 5). A transition whose last
house sample has been formed ends first (log 5). -/
def handedOver (r : Role) (code : Byte) (s : State) : State :=
  { caughtUp s with bus := (caughtUp s).bus.handedOver r code }

/-- Is a role's slot EXECUTING (R167)? -/
def State.executing (s : State) (r : Role) : Bool :=
  match s.bus.slots.get r with
  | .executing _ => true
  | _ => false

/-- A write frame to an address, carrying a code and exactly its declared payload (R165 to R170). A frame to another
address, to a role whose command is in execution, or while the RESET line is asserted (R179) changes nothing. -/
def takeFrame (code : Byte) (addr : BitVec 7) (payload : List Byte) (owner : Role → State → State) (s : State) :
    State :=
  if s.resetLine then s
  else
    match roleAt s.bus.strap addr with
    | none => s
    | some r =>
      if s.executing r then s
      else
        match judge code.toNat r payload s.starting with
        | some res => answer r code res s
        | none => owner r (handedOver r code s)

/-- The owner's first check, of the payload length (R190): FORMAT with no data if it is wrong. -/
def lengthChecked (ok : Bool) (r : Role) (k : State → State) (s : State) : State :=
  if ok then k s else complete r .format [] s

/-- The feed that a feed command names; the interface has judged the field. -/
def feedField (p : List Byte) : Side := (sideOf (u8 p 0)).getD .a

end Sys2Proof.Machine
end

