-- ==== Sys2Proof/Machine/Scene.lean ====
section
/-!
DEFINITION. The scene store (spec/07): the banks, the scene commands, the take, ramps and releases.
-/

namespace Sys2Proof.Machine

open Sys2Proof

/-! ## Keys and order (R109, R110) -/

/-- A key as one number, in the order of the banks: output, then input. -/
def keyOf (input output : Nat) : Nat := output * 256 + input

def RouteEntry.key (e : RouteEntry) : Nat := keyOf e.input e.output

def ActiveRoute.key (e : ActiveRoute) : Nat := keyOf e.input e.output

/-- An entry put in key order; it replaces the entry that holds its key (R110). -/
def insertEntry (e : RouteEntry) : List RouteEntry → List RouteEntry
  | [] => [e]
  | x :: xs => if e.key < x.key then e :: x :: xs else if e.key = x.key then e :: xs else x :: insertEntry e xs

/-- A route put in key order. -/
def insertRoute (e : ActiveRoute) : List ActiveRoute → List ActiveRoute
  | [] => [e]
  | x :: xs => if e.key < x.key then e :: x :: xs else if e.key = x.key then e :: xs else x :: insertRoute e xs

/-- The bank holds a key. -/
def holdsKey (bank : List RouteEntry) (key : Nat) : Bool := bank.any fun e => e.key == key

/-! ## Ramps (R125) -/

/-- One house sample of a route's ramp (R125). -/
def ActiveRoute.advanced (e : ActiveRoute) : ActiveRoute :=
  if e.remaining = 0 then e
  else if e.remaining = 1 then { e with remaining := 0, gain := e.target }
  else { e with remaining := e.remaining - 1, gain := e.gain + e.step }

/-- A releasing route at gain 0 (R126). -/
def ActiveRoute.gone (e : ActiveRoute) : Bool := e.releasing && e.gain == 0

/-- Finished releases removed (R126). -/
def removeReleased (s : State) : State :=
  { s with scene := { s.scene with active := s.scene.active.filter fun e => !e.gone } }

/-- RAMP_END: the last step of a route whose ramp has one house sample left, taken ahead of the rest of that house
sample (R125, log 6). DESIGN CHOICE (log 68): it is taken at once, also while a block event or a take of the house
sample before is still due, which then sees the route's last gain. -/
def endRamp (input output : Nat) (s : State) : State :=
  if s.resetLine then s
  else
    { s with
      scene := { s.scene with
        active := s.scene.active.map fun e =>
          if e.key = keyOf input output ∧ e.remaining = 1 then e.advanced else e } }

def execRampEnd (input output : Nat) (s : State) : Host.Outcome State Fault Refusal := .next (endRamp input output s)

/-! ## The take (R120 to R124) -/

/-- The current gain of the active route with a key, or 0 (R121). -/
def gainAt (active : List ActiveRoute) (key : Nat) : Int :=
  match active.find? fun e => e.key == key with
  | some e => e.gain
  | none => 0

/-- A pending entry entered from its start gain (R121). -/
def RouteEntry.entered (e : RouteEntry) (g0 : Int) : ActiveRoute :=
  { input := e.input, output := e.output, target := e.target, k := e.k, gain := g0
    step := (e.target - g0).tdiv (2 ^ e.k : Nat), remaining := 2 ^ e.k, releasing := false }

/-- An old route made releasing under kr (R122). -/
def ActiveRoute.released (e : ActiveRoute) (kr : Nat) : ActiveRoute :=
  { e with
    target := 0, k := kr, step := (0 - e.gain).tdiv (2 ^ kr : Nat), remaining := 2 ^ kr, releasing := true }

/-- The routes of the first stage (R121). -/
def Scene.enteredRoutes (v : Scene) : List ActiveRoute := v.pendingBank.map fun e => e.entered (gainAt v.active e.key)

/-- The releasing routes of the second stage (R122). -/
def Scene.releasedRoutes (v : Scene) (kr : Nat) : List ActiveRoute :=
  (v.active.filter fun e => !holdsKey v.pendingBank e.key).map fun e => e.released kr

/-- Releasing routes in the order in which they are cut: by magnitude of start gain, then by key (R123). -/
def quietestFirst (rel : List ActiveRoute) : List ActiveRoute :=
  rel.insertionSort fun a b => a.gain.natAbs ≤ b.gain.natAbs

/-- The releasing routes kept within a headroom (R123). -/
def keptReleases (rel : List ActiveRoute) (headroom : Nat) : List ActiveRoute :=
  let cut := ((quietestFirst rel).take (rel.length - headroom)).map ActiveRoute.key
  rel.filter fun e => !cut.contains e.key

/-- What a take reports (R119, R123). -/
structure TakeCounts where
  entered   : Nat
  releasing : Nat
  cut       : Nat
  deriving DecidableEq, Repr

/-- The counts of a take (R123). -/
def Scene.takeCounts (v : Scene) (house : Rate) (kr : Nat) : TakeCounts :=
  let rel := v.releasedRoutes kr
  let headroom := routeCapacity house - v.pendingBank.length
  { entered := v.pendingBank.length, releasing := min rel.length headroom, cut := rel.length - headroom }

/-- The scene store after a take of the sealed bank (R121 to R124). -/
def Scene.taken (v : Scene) (house : Rate) (kr : Nat) : Scene :=
  { v with
    active := (keptReleases (v.releasedRoutes kr) (routeCapacity house - v.pendingBank.length)).foldr insertRoute
      v.enteredRoutes
    pendingBank := [], state := .free, cut := (v.takeCounts house kr).cut }

/-- Take the pending bank if it is SEALED: the result and what it reports; CUTRELEASE if releases were cut (R119 to
R124). -/
def takeBank (s : State) : ResultCode × TakeCounts × State :=
  match s.scene.state with
  | .sealed kr =>
    let c := s.scene.takeCounts s.clock.rateClass kr
    (.ok, c, raiseIf (decide (0 < c.cut)) .cutrelease (be 2 c.cut ++ be 2 c.releasing)
      { s with scene := s.scene.taken s.clock.rateClass kr })
  | _ => (.nothing, { entered := 0, releasing := 0, cut := 0 }, s)

/-- The take of an awaiting SCNTAKE at its block event (R119). -/
def serveTake (s : State) : State :=
  if !s.resetLine && s.scene.take == .due then
    match takeBank { s with scene := { s.scene with take := .none } } with
    | (.ok, c, t) => complete .render .ok (cap8 c.entered ++ cap8 c.releasing ++ cap8 c.cut) t
    | (_, _, t) => complete .render .nothing [] t
  else s

def execTake (s : State) : Host.Outcome State Fault Refusal := .next (serveTake s)

/-! ## The copy (R113) -/

/-- The active routes that are not releasing, as pending entries (R113). -/
def Scene.copied (v : Scene) : List RouteEntry :=
  (v.active.filter fun e => !e.releasing).map fun e =>
    { input := e.input, output := e.output, target := e.target, k := e.k }

/-- The scene store with the copy made (R113). -/
def Scene.copyMade (v : Scene) : Scene := { v with pendingBank := v.copied, copy := .none }

/-- The copy of an SCNOPEN at its block event (R113). While a copy is in progress the state is BUILDING (R111). -/
def serveCopy (s : State) : State :=
  if !s.resetLine && s.scene.copy == .due then
    match s.scene.state with
    | .building => complete .render .ok (be 2 s.scene.copied.length) { s with scene := s.scene.copyMade }
    | _ => complete .render .nothing [] { s with scene := { s.scene with copy := .none } }
  else s

def execSceneCopy (s : State) : Host.Outcome State Fault Refusal := .next (serveCopy s)

/-! ## The scene commands -/

/-- A command that awaits a block event: at once due if one has fallen whose row has not been taken (log 4). -/
def State.await (s : State) : Await := if s.blockDue then .due else .waiting

/-- SCNOPEN (R112, R113). The mode is checked before the state, in the order of R112's sentences (DEDUCED, log 63). -/
def scnopen (p : List Byte) (r : Role) (s : State) : State :=
  match boolOf (u8 p 0) with
  | none => complete r .range [] s
  | some copying =>
    if s.scene.state ≠ .free then complete r .busy [] s
    else if copying then { s with scene := { s.scene with state := .building, pendingBank := [], copy := s.await } }
    else
      complete r .ok (be 2 0)
        { s with scene := { s.scene with state := .building, pendingBank := [], copy := .none } }

def execScnopen (addr : BitVec 7) (p : List Byte) (s : State) : Host.Outcome State Fault Refusal :=
  .next (takeFrame 0x20 addr p (fun r => lengthChecked (p.length == 1) r (scnopen p r)) s)

/-- The pending bank with a ROUTESET's entries applied in list order, exponents clamped (R115). -/
def applyRoutes (es : List RouteEntry) (bank : List RouteEntry) : List RouteEntry :=
  es.foldl (fun b e => insertEntry { e with k := min e.k 11 } b) bank

/-- The keys of a list that the bank does not hold, each once (R114). -/
def newKeys (es : List RouteEntry) (bank : List RouteEntry) : List Nat :=
  (es.map RouteEntry.key).dedup.filter fun k => !holdsKey bank k

/-- ROUTESET (R114, R115). DESIGN CHOICE (log 56): an entry whose input and output are both at fault names its input. -/
def routeset (es : List RouteEntry) (r : Role) (s : State) : State :=
  if s.scene.state ≠ .building then complete r .busy [] s
  else
    match firstIndex (fun e => decide (95 < e.input ∨ 63 < e.output)) es with
    | some k =>
      complete r .range (be 1 k ++ be 1 (if 95 < (es.getD k ⟨0, 0, 0, 0⟩).input then 0 else 1)) s
    | none =>
      let fresh := (newKeys es s.scene.pendingBank).length
      if pendingLimit s.clock.rateClass < s.scene.pendingBank.length + fresh then
        complete r .full (cap16 s.scene.pendingBank.length ++ cap16 fresh) s
      else
        let bank := applyRoutes es s.scene.pendingBank
        let clamps := (es.filter fun e => decide (11 < e.k)).length
        complete r (if 0 < clamps then .clamped else .ok)
          (cap16 fresh ++ cap8 (es.length - fresh) ++ cap8 clamps ++ cap16 bank.length)
          { s with scene := { s.scene with pendingBank := bank } }

/-- A ROUTESET payload is a whole number of entries, at most 40 (R114, R190). No entries is a form of it (log 15). -/
def execRouteset (addr : BitVec 7) (p : List Byte) (s : State) : Host.Outcome State Fault Refusal :=
  .next (takeFrame 0x21 addr p
    (fun r => lengthChecked (p.length % 6 == 0 && decide (p.length ≤ 240)) r (routeset (routeEntries p) r)) s)

/-- ROUTEDROP (R116). The state is checked before the keys, in the order of R116's sentences (DEDUCED, log 64). -/
def routedrop (ks : List (Nat × Nat)) (r : Role) (s : State) : State :=
  if s.scene.state ≠ .building then complete r .busy [] s
  else
    match firstIndex (fun k => decide (95 < k.1 ∨ 63 < k.2)) ks with
    | some k => complete r .range (be 1 k) s
    | none =>
      let keys := ks.map fun k => keyOf k.1 k.2
      let bank := s.scene.pendingBank.filter fun e => !keys.contains e.key
      let removed := s.scene.pendingBank.length - bank.length
      complete r .ok (cap8 removed ++ cap8 (ks.length - removed) ++ cap16 bank.length)
        { s with scene := { s.scene with pendingBank := bank } }

/-- A ROUTEDROP payload is a whole number of keys (R116, R190). No keys is a form of it (log 15). -/
def execRoutedrop (addr : BitVec 7) (p : List Byte) (s : State) : Host.Outcome State Fault Refusal :=
  .next (takeFrame 0x22 addr p (fun r => lengthChecked (p.length % 2 == 0) r (routedrop (bytePairs p) r)) s)

/-- SCNSEAL (R117). -/
def scnseal (kr : Nat) (r : Role) (s : State) : State :=
  if s.scene.state ≠ .building then complete r .busy [] s
  else
    complete r (if 11 < kr then .clamped else .ok) (cap16 s.scene.pendingBank.length ++ be 1 (min kr 11))
      { s with scene := { s.scene with state := .sealed (min kr 11) } }

def execScnseal (addr : BitVec 7) (p : List Byte) (s : State) : Host.Outcome State Fault Refusal :=
  .next (takeFrame 0x23 addr p (fun r => lengthChecked (p.length == 1) r (scnseal (u8 p 0) r)) s)

/-- SCNDISCARD (R118). -/
def scndiscard (r : Role) (s : State) : State :=
  if s.scene.state = .free then complete r .nothing [] s
  else
    complete r .ok (cap16 s.scene.pendingBank.length ++ be 1 s.scene.state.code)
      { s with scene := { s.scene with pendingBank := [], state := .free } }

def execScndiscard (addr : BitVec 7) (p : List Byte) (s : State) : Host.Outcome State Fault Refusal :=
  .next (takeFrame 0x24 addr p (fun r => lengthChecked p.isEmpty r (scndiscard r)) s)

/-- SCNTAKE: NOTHING at once unless the bank is SEALED, else it awaits the block event (R119). -/
def scntake (r : Role) (s : State) : State :=
  match s.scene.state with
  | .sealed _ => { s with scene := { s.scene with take := s.await } }
  | _ => complete r .nothing [] s

def execScntake (addr : BitVec 7) (p : List Byte) (s : State) : Host.Outcome State Fault Refusal :=
  .next (takeFrame 0x25 addr p (fun r => lengthChecked p.isEmpty r (scntake r)) s)

/-! ## SCNSTAT (R130) -/

/-- The 18 bytes of every SCNSTAT answer (spec/12). -/
def State.sceneStatus (s : State) : List Byte :=
  be 1 s.scene.state.code ++ be 1 (bit (s.scene.copy != .none)) ++ cap16 s.scene.pendingBank.length ++
    be 1 (match s.scene.state with | .sealed kr => kr | _ => 255) ++ be 1 (bit (s.scene.take != .none)) ++
    cap16 s.scene.active.length ++ cap16 (s.scene.active.filter fun e => e.releasing).length ++
    cap16 (s.scene.active.filter fun e => decide (0 < e.remaining)).length ++
    be 2 (routeCapacity s.clock.rateClass) ++ be 2 (pendingLimit s.clock.rateClass) ++ cap16 s.scene.cut

/-- The 20 bytes of a key's part (spec/12). -/
def Scene.keyStatus (v : Scene) (key : Nat) : List Byte :=
  (match v.active.find? fun e => e.key == key with
    | some e =>
      be 1 1 ++ beInt 3 e.target ++ be 1 e.k ++ beInt 3 e.gain ++ beInt 4 e.step ++ be 2 e.remaining ++
        be 1 (bit e.releasing)
    | none => List.replicate 15 0) ++
  (match v.pendingBank.find? fun e => e.key == key with
    | some e => be 1 1 ++ beInt 3 e.target ++ be 1 e.k
    | none => List.replicate 5 0)

/-- SCNSTAT (R130). -/
def scnstat (p : List Byte) (r : Role) (s : State) : State :=
  if p.isEmpty then complete r .ok s.sceneStatus s
  else if 95 < u8 p 0 ∨ 63 < u8 p 1 then complete r .range [] s
  else complete r .ok (s.sceneStatus ++ s.scene.keyStatus (keyOf (u8 p 0) (u8 p 1))) s

/-- A SCNSTAT payload is empty or one key (R130; log 15). -/
def execScnstat (addr : BitVec 7) (p : List Byte) (s : State) : Host.Outcome State Fault Refusal :=
  .next (takeFrame 0x26 addr p
    (fun r => lengthChecked (p.length == 0 || p.length == 2) r (scnstat p r)) s)

/-! ## FLUSH (R131) -/

/-- The scene store after FLUSH, but for the commands it answers (R131). -/
def Scene.flushed (_ : Scene) : Scene := sceneReset

/-- FLUSH of the scene store: an SCNOPEN waiting on its copy and an awaiting SCNTAKE complete with NOTHING (R113,
R131). -/
def flushScene (s : State) : State :=
  { s with
    scene := s.scene.flushed
    bus := if s.scene.copy != .none || s.scene.take != .none
      then s.bus.answered .render (s.bus.slots.get .render).code .nothing [] else s.bus }

end Sys2Proof.Machine
end

