-- ==== Sys2Proof/Machine/Output.lean ====
section
/-!
DEFINITION. The mix engine and the output stage (spec/08) with the delay lines (spec/03): sums, the stage's six
steps, group mutes, the general call, the MUTE line, OUTSET and OUTSTAT.
-/

namespace Sys2Proof.Machine

open Sys2Proof

/-! ## The mix sum (R133) -/

/-- The exact sum of an output's routes (R133). -/
def mixExact (active : List ActiveRoute) (inputs : List Int) (out : Nat) : Int :=
  ((active.filter fun e => e.output == out).map fun e => e.gain * inputs.getD e.input 0).sum

/-- An output's sum in sample units, and whether the saturation changed it (R133). -/
def mixSum (active : List ActiveRoute) (inputs : List Int) (out : Nat) : Int × Bool :=
  let y := scale22 (mixExact active inputs out)
  (sat24 y, sat24 y != y)

/-! ## Steps of the output stage -/

/-- One mute step toward a target (R139). -/
def muteStepped (m target : Nat) : Nat :=
  if m < target then m + Config.muteStep else if target < m then m - Config.muteStep else m

/-- Step 1 (R134): the mute step, unless DUCK_END has taken this house sample's (log 6). -/
def OutRec.stepMute (o : OutRec) (groups : Byte) (house : Bool) : OutRec :=
  { o with
    m := if o.stepTaken then o.m else muteStepped o.m (o.muteTarget groups house)
    stepTaken := false }

/-- Step 2: the slot value (R134). -/
def OutRec.slotValue (o : OutRec) : Int := (o.heldDelayed * o.m) >>> 22

/-- Step 3: the end of a duck (R134, R148). -/
def OutRec.endDuck (o : OutRec) : OutRec :=
  match o.pendingDelay with
  | some d => if o.m = 0 then { o with delay := d, pendingDelay := none } else o
  | none => o

/-- Step 4: the trimmed sum before saturation (R134). -/
def OutRec.trimmed (o : OutRec) : Int := scale22 (o.heldSum * o.trim)

/-- What step 5 leaves: memory, the line's output, the write index and valid count, and the word offset of a read that
failed (R40, R43). -/
structure LineStep where
  mem      : Memory
  out      : Int
  writeIdx : Nat
  valid    : Nat
  failed   : Option Nat
  deriving DecidableEq, Repr

/-- Step 5: one delay line at one house sample (R40, R41, R43). -/
def lineStep (passing : List Access) (cap base out : Nat) (delay writeIdx valid : Nat) (y2 : Int) (mem : Memory) :
    LineStep :=
  if cap = 0 then { mem := mem, out := y2, writeIdx := 0, valid := 0, failed := none }
  else
    let mem1 := mem.write (base + writeIdx) (BitVec.ofInt 24 y2)
    let valid1 := if valid < cap then valid + 1 else valid
    let at_ := (writeIdx + cap - delay) % cap
    let w := mem1.read (base + at_)
    let fails := decide (delay < valid1) && readFails passing .delay out 0 w
    { mem := mem1
      out := if delay < valid1 then (if fails then 0 else w.sample.toInt) else 0
      writeIdx := (writeIdx + 1) % cap
      valid := valid1
      failed := if fails then some at_ else none }

/-- A saturation found at step 4: the output, and the stages (R136). -/
structure Saturation where
  out  : Nat
  mix  : Bool
  trim : Bool
  deriving DecidableEq, Repr

/-- What one house sample of the output stage leaves. -/
structure StageRun where
  outs   : List OutRec
  slots  : List Int
  mem    : Memory
  sats   : List Saturation
  /-- delay-line reads that failed: output, word offset -/
  failed : List (Nat × Nat)
  deriving DecidableEq, Repr

/-- Steps 1 to 3 of R134. -/
def OutRec.upToDuck (o : OutRec) (groups : Byte) (house : Bool) : OutRec := (o.stepMute groups house).endDuck

/-- Steps 4 to 6 of R134 on a record after step 3: the record, given what the delay line did and the new sum. -/
def OutRec.finish (o : OutRec) (line : LineStep) (sum : Int × Bool) : OutRec :=
  { o with
    clip := o.clip || o.heldClipped || sat24 o.trimmed != o.trimmed
    heldDelayed := line.out, writeIdx := line.writeIdx, valid := line.valid
    heldSum := sum.1, heldClipped := sum.2 }

/-- The six steps of every output from number `k` on (R134). -/
def runStage (passing : List Access) (groups : Byte) (house : Bool) (cap base : Nat) (sums : Nat → Int × Bool) :
    List OutRec → Nat → Memory → StageRun
  | [], _, mem => { outs := [], slots := [], mem := mem, sats := [], failed := [] }
  | o :: os, k, mem =>
    let o1 := o.upToDuck groups house
    let line := lineStep passing cap (base + k * cap) k o1.delay o1.writeIdx o1.valid (sat24 o1.trimmed) mem
    let rest := runStage passing groups house cap base sums os (k + 1) line.mem
    let trimSat := sat24 o1.trimmed != o1.trimmed
    { outs := o1.finish line (sums k) :: rest.outs
      slots := (o.stepMute groups house).slotValue :: rest.slots
      mem := rest.mem
      sats := if o1.heldClipped || trimSat then { out := k, mix := o1.heldClipped, trim := trimSat } :: rest.sats
              else rest.sats
      failed := match line.failed with | some w => (k, w) :: rest.failed | none => rest.failed }

/-- CLIP for the saturations of one house sample (R136). -/
def raiseClip (sats : List Saturation) (s : State) : State :=
  match sats with
  | [] => s
  | v :: _ => raise .clip (be 1 v.out ++ [bitsByte [v.mix, v.trim]] ++ cap8 sats.length ++ [0]) s

/-- MEMFAULT for the delay-line reads that failed (R43). -/
def raiseLineFaults (failed : List (Nat × Nat)) (s : State) : State :=
  failed.foldl (fun s f => raise .memfault (be 1 2 ++ be 1 f.1 ++ low16 f.2) s) s

/-- The output stage at a house sample of RUNNING (R134 to R137). -/
def outputStage (passing : List Access) (inputs : List Int) (s : State) : State :=
  let run := runStage passing s.groups s.houseMute (delayCapacity s.pagesD) s.delayBase
    (mixSum s.scene.active inputs) s.outs 0 s.mem
  raiseClip run.sats (raiseLineFaults run.failed { s with outs := run.outs, slots := run.slots, mem := run.mem })

/-- The output stage at a house sample of STARTING: the mute step alone; every slot carries 0 (R12, R134, R139). -/
def outputStarting (s : State) : State :=
  { s with outs := s.outs.map fun o => o.stepMute s.groups s.houseMute, slots := s.outs.map fun _ => 0 }

/-- The 48 bytes of one output lane's frame (R189). -/
def laneFrame (s : State) (lane : Nat) : List Byte := ((s.slots.drop (16 * lane)).take 16).flatMap (beInt 3)

/-! ## DUCK_END -/

/-- DUCK_END: the mute step that brings a ducking output's m to 0, with the delay change that follows it, taken ahead
of the rest of that house sample (R134, R148, log 6). DESIGN CHOICE (log 70): an OUTSET taken between the two finds m at
0 and no pending delay, and step 5 of that house sample reads at the delay that it sets. -/
def OutRec.duckEnds (o : OutRec) : OutRec :=
  match o.pendingDelay with
  | some d =>
    if o.m = 0 then { o with delay := d, pendingDelay := none }
    else if o.m ≤ Config.muteStep ∧ o.stepTaken = false then
      { o with m := 0, delay := d, pendingDelay := none, stepTaken := true }
    else o
  | none => o

/-- One output's record changed. -/
def State.onOut (s : State) (k : Nat) (g : OutRec → OutRec) : State :=
  { s with outs := s.outs.modify k g }

def duckEnd (k : Nat) (s : State) : State :=
  if s.resetLine || s.starting then s else s.onOut k OutRec.duckEnds

def execDuckEnd (k : Nat) (s : State) : Host.Outcome State Fault Refusal := .next (duckEnd k s)

/-! ## Groups and the house mute -/

/-- One group's flag set (R140). -/
def setGroup (groups : Byte) (g : Nat) (on : Bool) : Byte :=
  if on then groups ||| ((1 : Byte) <<< g) else groups &&& ~~~((1 : Byte) <<< g)

/-- A group mute or unmute handed to the output stage: RANGE if g is above 7 (R140, R141). -/
def groupStep (g : Nat) (on : Bool) (s : State) : ResultCode × State :=
  if 7 < g then (.range, s) else (.ok, { s with groups := setGroup s.groups g on })

/-- GROUPSET (R140). -/
def groupset (p : List Byte) (r : Role) (s : State) : State :=
  match boolOf (u8 p 1) with
  | none => complete r .range [] s
  | some on =>
    if 7 < u8 p 0 then complete r .range [] s
    else complete r .ok (be 1 (bit (s.groups.getLsbD (u8 p 0)))) (groupStep (u8 p 0) on s).2

def execGroupset (addr : BitVec 7) (p : List Byte) (s : State) : Host.Outcome State Fault Refusal :=
  .next (takeFrame 0x44 addr p (fun r => lengthChecked (p.length == 2) r (groupset p r)) s)

/-- The house mute judged after a change of one of its sources: MUTE if it changed; cause 0 is the general call and 1
the MUTE line (R144). -/
def judgeHouseMute (before : Bool) (cause : Nat) (s : State) : State :=
  raiseIf (s.houseMute != before) .mute
    (be 1 (bit s.houseMute) ++ be 1 cause ++ be 1 (bit s.gcMute) ++ be 1 (bit s.muteAccepted)) s

/-- A general-call byte acknowledged and handed on: 70h clears the flag, 71h sets it (R142, R166). -/
def callByte (b : Byte) (s : State) : State :=
  if b = 0x70 then judgeHouseMute s.houseMute 0 { s with gcMute := false }
  else if b = 0x71 then judgeHouseMute s.houseMute 0 { s with gcMute := true }
  else s

/-- A general-call frame: its first byte is judged alone (R166). -/
def takeCall (bytes : List Byte) (s : State) : State :=
  if s.resetLine then s
  else
    match bytes with
    | [] => s
    | b :: _ => callByte b s

def execGeneralCall (bytes : List Byte) (s : State) : Host.Outcome State Fault Refusal := .next (takeCall bytes s)

/-- The MUTE line sampled at a block event (R143, R144). -/
def sampleMute (s : State) : State :=
  judgeHouseMute s.houseMute 1
    { s with
      muteAccepted := if s.mutePin = s.muteLast then s.mutePin else s.muteAccepted
      muteLast := s.mutePin }

/-! ## OUTSET (R146 to R148) -/

/-- The delay an output will run with: the pending delay if one is held, else the delay in force (R146, R147). -/
def OutRec.delayToRun (o : OutRec) : Nat := o.pendingDelay.getD o.delay

/-- A clamped delay taken: the record and the action byte, 0 no change, 1 changed at once, 2 a duck begun, 3 a
pending delay replaced (R147, spec/12). -/
def OutRec.takeDelay (o : OutRec) (d : Nat) : OutRec × Nat :=
  if d = o.delayToRun then (o, 0)
  else
    match o.pendingDelay with
    | some _ => ({ o with pendingDelay := some d }, 3)
    | none => if o.m = 0 then ({ o with delay := d }, 1) else ({ o with pendingDelay := some d }, 2)

/-- Two bytes of a pending delay, FFFFh for none (spec/12; log 23). -/
def pendingBytes : Option Nat → List Byte
  | some d => be 2 d
  | none => [0xFF, 0xFF]

/-- The field at fault of an OUTSET, by its offset, if one is (R146). DESIGN CHOICE (log 57): the lowest offset, where
several fields are at fault. -/
def outsetFault (p : List Byte) : Option Nat :=
  if 63 < u8 p 0 then some 0
  else if fieldInt p 1 < 0 then some 1
  else if 1 < u8 p 6 then some 6
  else none

/-- OUTSET (R146, R147). -/
def outset (p : List Byte) (r : Role) (s : State) : State :=
  match outsetFault p with
  | some off => complete r .range (be 1 off) s
  | none =>
    let k := u8 p 0
    let o := s.outs.getD k outReset
    let trim := field p 1 3
    let d := min (field p 4 2) (maxDelay s.pagesD)
    if s.bus.lock ∧ ¬(trim = o.trim ∧ d = o.delayToRun) then complete r .locked [] s
    else
      let stored := { o with trim := trim, ownMute := u8 p 6 == 1, mask := p.getD 7 0 }
      let res := stored.takeDelay d
      complete r (if d = field p 4 2 then .ok else .clamped)
        (be 3 trim ++ be 2 res.1.delay ++ pendingBytes res.1.pendingDelay ++ be 1 (u8 p 6) ++ [p.getD 7 0] ++
          be 2 d ++ be 1 res.2)
        (s.onOut k fun _ => res.1)

def execOutset (addr : BitVec 7) (p : List Byte) (s : State) : Host.Outcome State Fault Refusal :=
  .next (takeFrame 0x42 addr p (fun r => lengthChecked (p.length == 8) r (outset p r)) s)

/-! ## OUTSTAT (R150) -/

/-- The 22 bytes of an OUTSTAT answer (spec/12). -/
def State.outStatus (s : State) (k : Nat) : List Byte :=
  let o := s.outs.getD k outReset
  be 1 k ++ be 3 o.trim ++ be 2 o.delay ++ pendingBytes o.pendingDelay ++ be 1 (bit o.ownMute) ++ [o.mask] ++
    be 3 o.m ++ be 1 (bit (!o.muted s.groups s.houseMute)) ++
    [bitsByte [o.ownMute, o.groupMuted s.groups, s.houseMute, o.pendingDelay.isSome]] ++ be 1 (bit o.clip) ++
    be 2 o.writeIdx ++ be 2 o.valid ++ [s.groups] ++ [s.houseMuteByte]

/-- OUTSTAT (R150). -/
def outstat (p : List Byte) (r : Role) (s : State) : State :=
  match boolOf (u8 p 1) with
  | none => complete r .range [] s
  | some clear =>
    if 63 < u8 p 0 then complete r .range [] s
    else
      complete r .ok (s.outStatus (u8 p 0)) (s.onOut (u8 p 0) fun o => { o with clip := o.clip && !clear })

def execOutstat (addr : BitVec 7) (p : List Byte) (s : State) : Host.Outcome State Fault Refusal :=
  .next (takeFrame 0x43 addr p (fun r => lengthChecked (p.length == 2) r (outstat p r)) s)

/-! ## PARTITION and FLUSH on the records -/

/-- A delay cut to the new maximum, and the line's history dropped (R45). -/
def OutRec.reclamped (o : OutRec) (most : Nat) : OutRec :=
  { o with
    delay := min o.delay most, pendingDelay := o.pendingDelay.map fun d => min d most, writeIdx := 0, valid := 0 }

/-- Does the new maximum cut the output's delay or pending delay (R45)? -/
def OutRec.cutBy (o : OutRec) (most : Nat) : Bool :=
  decide (most < o.delay) || (match o.pendingDelay with | some d => decide (most < d) | none => false)

/-- FLUSH of an output record (R152, R47). -/
def OutRec.flushed (o : OutRec) : OutRec := { o with delay := o.delayToRun, pendingDelay := none, valid := 0 }

/-- FLUSH of the output stage (R152). -/
def flushOutputs (s : State) : State := { s with outs := s.outs.map OutRec.flushed, groups := 0 }

end Sys2Proof.Machine
end

