-- ==== Sys2Proof/Machine/Cues.lean ====
section
/-!
DEFINITION. The cue list (spec/09): posting, cancelling, reading and firing cues.
-/

namespace Sys2Proof.Machine

open Sys2Proof

/-! ## The list (R155) -/

/-- A cue inserted after every cue whose trigger is at or below its own (R155). -/
def insertCue (c : Cue) : List Cue → List Cue
  | [] => [c]
  | x :: xs => if x.trigger ≤ c.trigger then x :: insertCue c xs else c :: x :: xs

/-- The index at which a cue is inserted (R156). -/
def cueIndex (trigger : Nat) (cues : List Cue) : Nat := (cues.filter fun c => decide (c.trigger ≤ trigger)).length

/-! ## The cue commands -/

/-- CUEPOST (R156). -/
def cuepost (p : List Byte) (r : Role) (s : State) : State :=
  match cueActionOf (u8 p 6) with
  | none => complete r .range [] s
  | some action =>
    if Config.cueCapacity ≤ s.cues.length then complete r .full [] s
    else
      let trigger := field p 1 5
      let late := decide (trigger ≤ s.sel.pos)
      complete r (if late then .late else .ok)
        (be 1 (s.cues.length + 1) ++ be 1 (cueIndex trigger s.cues) ++ be 5 s.sel.pos)
        { s with
          cues := insertCue
            { tag := p.getD 0 0, poster := r, trigger := trigger, action := action, arg := p.getD 7 0, late := late }
            s.cues }

def execCuepost (addr : BitVec 7) (p : List Byte) (s : State) : Host.Outcome State Fault Refusal :=
  .next (takeFrame 0x30 addr p (fun r => lengthChecked (p.length == 8) r (cuepost p r)) s)

/-- CUECANCEL (R158). -/
def cuecancel (tag : Byte) (r : Role) (s : State) : State :=
  let kept := s.cues.filter fun c => !(c.tag == tag && c.poster == r)
  if kept.length = s.cues.length then complete r .nothing [] s
  else complete r .ok (be 1 (s.cues.length - kept.length) ++ be 1 kept.length) { s with cues := kept }

def execCuecancel (addr : BitVec 7) (p : List Byte) (s : State) : Host.Outcome State Fault Refusal :=
  .next (takeFrame 0x31 addr p (fun r => lengthChecked (p.length == 1) r (cuecancel (p.getD 0 0) r)) s)

/-- A cue record as reported (spec/12). -/
def Cue.bytes (c : Cue) : List Byte :=
  [c.tag] ++ be 1 c.poster.code ++ be 5 c.trigger ++ be 1 c.action.code ++ [c.arg] ++ be 1 (bit c.late)

/-- CUESTAT (R159). -/
def cuestat (r : Role) (s : State) : State :=
  complete r .ok
    (be 1 s.cues.length ++ be 1 (s.cues.filter fun c => c.poster == .render).length ++
      be 1 (s.cues.filter fun c => c.poster == .system).length ++ (s.cues.take 4).flatMap Cue.bytes) s

def execCuestat (addr : BitVec 7) (p : List Byte) (s : State) : Host.Outcome State Fault Refusal :=
  .next (takeFrame 0x32 addr p (fun r => lengthChecked p.isEmpty r (cuestat r)) s)

/-! ## Firing (R160 to R162) -/

/-- A cue's action handed to its owner, and the result handed back (R160). -/
def cueAct (c : Cue) (s : State) : ResultCode × State :=
  match c.action with
  | .take => match takeBank s with | (res, _, t) => (res, t)
  | .groupMute => groupStep c.arg.toNat true s
  | .groupUnmute => groupStep c.arg.toNat false s
  | .switch => onairSteps c.arg.toNat s
  | .mark => (.ok, s)

/-- The detail of a CUE notice (spec/12). -/
def Cue.detail (c : Cue) (res : ResultCode) : List Byte :=
  [c.tag] ++ be 1 (c.action.code + 8 * bit c.late + 16 * bit (c.poster == .system)) ++ be 1 res.code ++ [0]

/-- One cue fired: its action handed on; CUE if it is late, its owner did not answer OK, or it is a MARK (R160,
R162). -/
def fireCue (c : Cue) (s : State) : State :=
  match cueAct c s with
  | (res, t) => raiseIf (c.late || res != .ok || c.action == .mark) .cue (c.detail res) t

/-- Is a cue due at a position (R160)? -/
def Cue.due (c : Cue) (pos : Nat) : Bool := c.late || decide (c.trigger ≤ pos)

/-- The pass of a block event: every due cue leaves the list and fires, in list order (R160). -/
def cuePass (s : State) : State :=
  (s.cues.filter fun c => c.due s.sel.pos).foldl (fun s c => fireCue c s)
    { s with cues := s.cues.filter fun c => !c.due s.sel.pos }

end Sys2Proof.Machine
end

