-- ==== Sys2Proof/Machine/Intake.lean ====
section
/-!
DEFINITION. Feed lanes and block intake (spec/02, spec/12): lane blocks beginning, arriving and being abandoned,
placement in the ring, the pace windows, the lane watch.
-/

namespace Sys2Proof.Machine

open Sys2Proof

/-! ## The check word (R188) -/

/-- One shift of the check register. -/
def crcShift (reg : BitVec 16) : BitVec 16 :=
  if reg.msb then (reg <<< 1) ^^^ 0x1021 else reg <<< 1

/-- One byte taken into the check register. -/
def crcByte (reg : BitVec 16) (b : Byte) : BitVec 16 :=
  Nat.repeat crcShift 8 (reg ^^^ (b.setWidth 16 <<< 8))

/-- The check word over bytes (R188). -/
def crcOf (bs : List Byte) : BitVec 16 := bs.foldl crcByte 0xFFFF

/-- The bytes of a block's sync word and header, as received (spec/12). -/
def headerBytes (v : LaneHeader) : List Byte :=
  [0x6B, 0xD2, v.laneNo, v.count, v.flags] ++ be 5 v.stamp.toNat

/-- Body bytes of a block: samples and check word. -/
def bodyLen (v : LaneHeader) : Nat := 96 * v.count.toNat + 2

/-- Is the check word right (R188)? -/
def checkRight (v : LaneHeader) (body : List Byte) : Bool :=
  crcOf (headerBytes v ++ body.take (96 * v.count.toNat)) == BitVec.ofNat 16 (ofBe (body.drop (96 * v.count.toNat)))

/-! ## Pace marks -/

/-- A block begins on a lane (R26, R28). -/
def Feed.paceBegun (f : Feed) (l : Lane) : Feed :=
  if f.pace.isOpen then
    { f with
      pace := { f.pace with
        begun := f.pace.begun.add l
        isOpen := f.setup.mode == .single || !f.setup.coveredBy (f.pace.begun.add l) } }
  else f

/-- A block that began on a lane has ended (R26, R28): in SINGLE mode the request is answered when every used lane
has ended; in BURST mode a new window opens if the line is still asserted. DESIGN CHOICE (log 66): the new window has
lanes begun and lanes ended empty, where R28 says only try 1 and count 0. -/
def Feed.paceEnded (f : Feed) (l : Lane) : Feed :=
  if f.pace.begun.get l then
    match f.setup.mode with
    | .streaming => f
    | .single =>
      if f.pace.isOpen then
        { f with
          pace := { f.pace with
            ended := f.pace.ended.add l, isOpen := !f.setup.coveredBy (f.pace.ended.add l) } }
      else f
    | .burst =>
      if !f.pace.isOpen && f.setup.coveredBy (f.pace.ended.add l) && f.pace.line then
        { f with
          pace := { f.pace with isOpen := true, try2 := false, window := 0, begun := noLanes, ended := noLanes } }
      else { f with pace := { f.pace with ended := f.pace.ended.add l } }
  else f

/-! ## Placing blocks (R16 to R22) -/

/-- Outcome of the stamp tests (R18). -/
inductive StampOutcome where
  | discard | overrun | place
  deriving DecidableEq, Repr

/-- The stamp tests of R18, in order. -/
def Feed.stampTest (f : Feed) (t : Nat) : StampOutcome :=
  if t < f.s0 then .discard
  else if t + 31 + 8 < f.rs.i then .discard
  else if (match f.sourceEnd with | some e => decide (e < t) | none => false) then .discard
  else if f.h ≤ t ∧ (f.rs.i + f.setup.depth ≤ t ∨ f.reusable (f.slotAt t) = false) then .overrun
  else .place

/-- Tests 3 and 4 of R16: the stamp is a multiple of 32 and above the lane's last accepted stamp. -/
def Feed.stampFresh (f : Feed) (l : Lane) (t : Nat) : Bool :=
  t % 32 == 0 && (match f.last l with | some p => decide (p < t) | none => true)

/-- The gap before a new stamp entered as MISSING (R19). Of the stamps h, h + 32, …, t - 32 only the last D/32 - 1 are
entered: an older one's slot is taken by a later stamp of the same entry. -/
def Feed.openGap (f : Feed) (t : Nat) : Feed :=
  let start := max f.h (t + 32 - f.setup.depth)
  (List.range ((t - start) / 32)).foldl
    (fun g k => g.setSlot (start + 32 * k) { stamp := some (start + 32 * k), state := .missing, got := noLanes }) f

/-- The detail of a DAMAGE or SLIP notice (spec/12): feed, cause, block number. -/
def blockDetail (x : Side) (cause stamp : Nat) : List Byte := be 1 x.code ++ be 1 cause ++ low16 (stamp / 32)

/-- A new block's slot (R17, R19). -/
def newSlot (u : Setup) (l : Lane) (t : Nat) (valid : Bool) : Slot :=
  { stamp := some t, state := if !valid then .damaged else if u.lanes = 2 then .filling else .good
    got := noLanes.add l }

/-- A second half's slot (R17, R20). -/
def Slot.joined (v : Slot) (l : Lane) (valid : Bool) : Slot :=
  { v with
    got := v.got.add l
    state := if !valid then .damaged else
      match v.state with
      | .filling | .good => .good
      | .missing | .damaged | .empty => .damaged }

/-- The samples of a half written, frame by frame, channels in ascending order (R14, spec/12). -/
def writeSamples (addr : Nat → Nat) : List Byte → Nat → Memory → Memory
  | a :: b :: c :: rest, k, m => writeSamples addr rest (k + 1) (m.write (addr k) (BitVec.ofNat 24 (ofBe [a, b, c])))
  | _, _, m => m

/-- Sample memory with a half's samples written (R14). -/
def State.withSamples (s : State) (x : Side) (l : Lane) (t : Nat) (samples : List Byte) : State :=
  let u := (s.feed x).setup
  { s with
    mem := writeSamples
      (fun k => s.ringAddr x (u.firstChannel l + k % u.laneCount l) (t + k / u.laneCount l)) samples 0 s.mem }

/-- Stamps of the slots that R21 damages: FILLING from lane l alone, 64 or more below the lane's new stamp; rising. -/
def Feed.skewed (f : Feed) (l : Lane) (a : Nat) : List Nat :=
  (f.ring.filterMap fun v =>
    match v.stamp with
    | some t => if v.state == .filling && v.got == noLanes.add l && decide (t + 64 ≤ a) then some t else none
    | none => none).insertionSort (· ≤ ·)

/-- The skew rule after a lane's last accepted stamp became a (R21). -/
def skewCheck (x : Side) (l : Lane) (a : Nat) (s : State) : State :=
  if (s.feed x).setup.lanes = 2 then
    ((s.feed x).skewed l a).foldl
      (fun s t =>
        raise .damage (blockDetail x 3 t)
          (s.onFeed x fun f => f.setSlot t { f.slotAt t with state := .damaged }))
      s
  else s

/-- The source end marked, or lowered (R22). -/
def Feed.markEnd (f : Feed) (t : Nat) : Feed :=
  { f with sourceEnd := some (match f.sourceEnd with | some e => min e (t + 31) | none => t + 31) }

/-- A good block for the lane watch: it arms the watch or sets the lane's mark (R29). -/
def Feed.goodBlock (f : Feed) (l : Lane) : Feed :=
  { f with
    watch := if f.watch.armed then { f.watch with marks := f.watch.marks.add l }
      else { f.watch with armed := true, blocks := 0, marks := noLanes.add l, paceBad := false, iOpen := f.rs.i } }

/-- A SEEKING feed becomes PRIMED when its fill reaches T or its intake has ended (R52). -/
def Feed.primes (f : Feed) : Feed :=
  { f with
    st := if f.st == .seeking && (decide (f.setup.target ≤ f.fill) || f.intakeEnded) then .primed else f.st }

/-- A block that the stamp tests place, in its slot: at or beyond the head (R19), or as a second half below it
(R20). -/
def placeSlot (x : Side) (l : Lane) (t : Nat) (valid : Bool) (s : State) : State :=
  let f := s.feed x
  if f.h ≤ t then
    raiseIf (!valid) .damage (blockDetail x 0 t)
      (raiseIf (decide (f.h < t)) .damage (blockDetail x 1 f.h)
        (s.setFeed x { (f.openGap t).setSlot t (newSlot f.setup l t valid) with h := t + 32 }))
  else
    raiseIf (!valid) .damage (blockDetail x 0 t)
      (raiseIf (valid && (f.slotAt t).state == .missing) .damage (blockDetail x 2 t)
        (s.setFeed x (f.setSlot t ((f.slotAt t).joined l valid))))

/-- What follows a placement: the lane's last accepted stamp, the skew rule, and for a valid block its samples, its
END flag and, unless the intake had ended before it, the lane watch (R24, R29, log 48); then PRIMED and the pace line
(R19 to R22, R28, R52). -/
def placed (x : Side) (l : Lane) (t : Nat) (valid ended : Bool) (samples : List Byte) (s : State) : State :=
  let s1 := placeSlot x l t valid (if valid then s.withSamples x l t samples else s)
  let s2 := skewCheck x l t (s1.onFeed x fun f => f.setLast l (some t))
  s2.onFeed x fun f =>
    let f1 := if valid && ended then f.markEnd t else f
    let f2 := if valid && !(s.feed x).intakeEnded then f1.goodBlock l else f1
    f2.primes.paceSettled (s.feed x).fill s.starting

/-- Does a block below the head find its own stamp in its slot (R18)? -/
def Feed.findsSlot (f : Feed) (t : Nat) : Bool := decide (f.h ≤ t) || (f.slotAt t).stamp == some t

/-- A block that has arrived, judged (R16, R17). -/
def judgeBlock (x : Side) (l : Lane) (v : LaneHeader) (body : List Byte) (s : State) : State :=
  let f := s.feed x
  let t := v.stamp.toNat
  if !f.inPlay || s.starting || !s.placed x then s
  else if checkRight v body then
    if v.laneNo.toNat = l.code ∧ v.count.toNat = f.setup.laneCount l ∧ f.stampFresh l t = true then
      match f.stampTest t with
      | .discard => s
      | .overrun => raise .slip (blockDetail x 0 t) s
      | .place =>
        if f.findsSlot t then placed x l t true (v.flags.getLsbD 0) (body.take (96 * v.count.toNat)) s else s
    else s
  else if f.stampFresh l t && f.stampTest t == .place && f.findsSlot t then placed x l t false false [] s
  else s

/-! ## The lane receiver, byte by byte (R15, R188) -/

/-- The header that eight bytes spell (spec/12). -/
def headerOf (got : List Byte) : LaneHeader :=
  { laneNo := got.getD 0 0, count := got.getD 1 0, flags := got.getD 2 0
    stamp := BitVec.ofNat 40 (ofBe ((got.drop 3).take 5)) }

/-- The last header byte has been received: the body is due, or the count cannot frame a block, which then counts as
ended (R15). -/
def laneHeaded (x : Side) (l : Lane) (v : LaneHeader) (s : State) : State :=
  if v.count.toNat = 0 ∨ 48 < v.count.toNat then s.onFeed x fun f => (f.setRx l .hunting).paceEnded l
  else s.onFeed x fun f => f.setRx l (.receiving v [] (bodyLen v) 0)

/-- The last byte of a block has been received: the receiver hunts again, and the block is judged and counts as ended
(R15, R16). -/
def laneArrived (x : Side) (l : Lane) (v : LaneHeader) (body : List Byte) (s : State) : State :=
  (judgeBlock x l v body (caughtUp (s.onFeed x fun f => f.setRx l .hunting))).onFeed x fun f => f.paceEnded l

/-- One byte received on a lane: a sync word is 6Bh followed directly by D2h, then come eight header bytes and the
bytes due (R15, R188). -/
def laneByte (x : Side) (l : Lane) (b : Byte) (s : State) : State :=
  match (s.feed x).rx l with
  | .hunting => if b = 0x6B then s.onFeed x fun f => f.setRx l .halfSync else s
  | .halfSync =>
    if b = 0xD2 then s.onFeed x fun f => (f.setRx l (.heading [] 0)).paceBegun l
    else if b = 0x6B then s
    else s.onFeed x fun f => f.setRx l .hunting
  | .heading got _ =>
    if got.length < 7 then s.onFeed x fun f => f.setRx l (.heading (got ++ [b]) 0)
    else laneHeaded x l (headerOf (got ++ [b])) s
  | .receiving v body due _ =>
    if 1 < due then s.onFeed x fun f => f.setRx l (.receiving v (body ++ [b]) (due - 1) 0)
    else laneArrived x l v (body ++ [b]) s

/-- Bytes received on a lane, in order. -/
def laneBytes (x : Side) (l : Lane) (bytes : List Byte) (s : State) : State :=
  bytes.foldl (fun s b => laneByte x l b s) s

/-- Bytes received on a lane of a feed: an unused lane receives none, nor does any while the RESET line is asserted
(R13, R14). -/
def laneArrive (x : Side) (l : Lane) (bytes : List Byte) (s : State) : State :=
  if s.resetLine || !(s.feed x).setup.uses l then s else laneBytes x l bytes s

/-! ## LANE_BLOCK_BEGIN and LANE_BLOCK_ARRIVE -/

/-- Does the receiver hunt for the sync word (R15)? -/
def Receiver.hunts : Receiver → Bool
  | .hunting | .halfSync => true
  | .heading _ _ | .receiving _ _ _ _ => false

/-- A block begins: a hunting receiver receives the sync word and the header (R15). -/
def laneBegin (x : Side) (l : Lane) (v : LaneHeader) (s : State) : State :=
  if ((s.feed x).rx l).hunts then laneArrive x l (headerBytes v) s else s

def execLaneBlockBegin (x : Side) (l : Lane) (v : LaneHeader) (s : State) : Host.Outcome State Fault Refusal :=
  .next (laneBegin x l v s)

def execLaneBlockArrive (x : Side) (l : Lane) (bytes : List Byte) (s : State) : Host.Outcome State Fault Refusal :=
  .next (laneArrive x l bytes s)

/-! ## LANE_BLOCK_ABANDON -/

/-- Has a second block event fallen with no byte since the first (R15)? -/
def Receiver.stale : Receiver → Bool
  | .heading _ silent | .receiving _ _ _ silent => 2 ≤ silent
  | .hunting | .halfSync => false

/-- A stale receiver drops its block, which counts as ended (R15). -/
def laneAbandon (x : Side) (l : Lane) (s : State) : State :=
  if !s.resetLine && ((s.feed x).rx l).stale then s.onFeed x fun f => (f.setRx l .hunting).paceEnded l else s

def execLaneBlockAbandon (x : Side) (l : Lane) (s : State) : Host.Outcome State Fault Refusal :=
  .next (laneAbandon x l s)

/-! ## Pace windows -/

/-- Has the open pace window reached 128 with a used lane not begun (R27, R28)? -/
def Feed.windowOver (f : Feed) (m : FeedMode) : Bool :=
  f.setup.mode == m && f.pace.isOpen && decide (Config.paceWindow ≤ f.pace.window) &&
    !f.setup.coveredBy f.pace.begun

/-- The pace-bad mark on the open watch period; dropped if the watch is not armed (R27). -/
def Watch.paceFailed (w : Watch) : Watch := { w with paceBad := w.paceBad || w.armed }

/-- The detail of PACELATE: the feed and the lanes not begun (spec/12). DESIGN CHOICE (log 59): an unused lane is not
named. -/
def Feed.paceDetail (f : Feed) (x : Side) : List Byte := be 1 x.code ++ [(f.setup.lacking f.pace.begun).byte, 0, 0]

/-- A SINGLE window expires (R27). -/
def paceExpiry (x : Side) (s : State) : State :=
  if !s.resetLine && (s.feed x).windowOver .single then
    if (s.feed x).pace.try2 then
      raise .pacelate ((s.feed x).paceDetail x)
        (s.onFeed x fun f => { f with pace := { f.pace with isOpen := false }, watch := f.watch.paceFailed })
    else s.onFeed x fun f => { f with pace := { f.pace with line := true, try2 := true, window := 0 } }
  else s

def execPaceWindowExpiry (x : Side) (s : State) : Host.Outcome State Fault Refusal := .next (paceExpiry x s)

/-- A BURST window expires (R28). DESIGN CHOICE (log 66): the new window after a second expiry has lanes begun and lanes
ended empty, where R28 says only try 1 and count 0. -/
def burstExpiry (x : Side) (s : State) : State :=
  if !s.resetLine && (s.feed x).windowOver .burst then
    if (s.feed x).pace.try2 then
      raise .pacelate ((s.feed x).paceDetail x)
        (s.onFeed x fun f =>
          { f with
            pace := { f.pace with try2 := false, window := 0, begun := noLanes, ended := noLanes }
            watch := f.watch.paceFailed })
    else s.onFeed x fun f => { f with pace := { f.pace with line := false, isOpen := false, reassert := true } }
  else s

def execBurstWindowExpiry (x : Side) (s : State) : Host.Outcome State Fault Refusal := .next (burstExpiry x s)

/-- The pace state's work at a house sample event (R26 to R28). DESIGN CHOICE (log 62): where a SINGLE request is
answered within one house sample and the next event makes a new one, the line is asserted at that event too. -/
def Feed.paceSample (f : Feed) (starting : Bool) : Feed :=
  if !f.paceActive starting then { f with pace := paceIdle }
  else
    match f.setup.mode with
    | .streaming => f
    | .single =>
      if f.pace.isOpen then
        { f with
          pace := { f.pace with
            line := false
            window := if f.setup.coveredBy f.pace.begun then f.pace.window else f.pace.window + 1 } }
      else if f.fill + 32 ≤ f.setup.target then
        { f with pace := { paceIdle with line := true, isOpen := true } }
      else { f with pace := { f.pace with line := false } }
    | .burst =>
      if f.setup.target ≤ f.fill then { f with pace := paceIdle }
      else if f.pace.reassert then
        { f with pace := { paceIdle with line := true, isOpen := true, try2 := true } }
      else if !f.pace.line then { f with pace := { paceIdle with line := true, isOpen := true } }
      else if f.pace.isOpen && !f.setup.coveredBy f.pace.begun then
        { f with pace := { f.pace with window := f.pace.window + 1 } }
      else f

/-! ## The lane watch -/

/-- Judgements of a watch period (R29). -/
inductive Verdict where
  | good | bad | void
  deriving DecidableEq, Repr

/-- Does the watch judge periods now (R29)? -/
def Feed.watchJudges (f : Feed) : Bool := f.watch.armed && f.inPlay && !f.intakeEnded

/-- The judgement at a period's close (R29). -/
def Feed.verdict (f : Feed) : Verdict :=
  if f.watch.paceBad then .bad
  else if f.st ≠ .seeking ∧ f.rs.i = f.watch.iOpen then .void
  else if f.setup.coveredBy f.watch.marks then .good
  else .bad

/-- The watch after a judgement: the counts saturate at 2, the marks are cleared, the next period opens at i (R29),
and the lane state changes at two that agree (R30, R31). -/
def Watch.closed (w : Watch) (v : Verdict) (i : Nat) : Watch :=
  let bad := match v with | .bad => min (w.bad + 1) 2 | .good => 0 | .void => w.bad
  let good := match v with | .good => min (w.good + 1) 2 | .bad => 0 | .void => w.good
  { w with
    blocks := 0, marks := noLanes, paceBad := false, iOpen := i, bad := bad, good := good
    absent := match v with
      | .bad => w.absent || bad == 2
      | .good => w.absent && good != 2
      | .void => w.absent }

/-- A watch period's close is due: its W-th block event has fallen (R29). -/
def Feed.closeDue (f : Feed) : Bool := f.watchJudges && decide (f.setup.watchLen ≤ f.watch.blocks)

/-- The detail of LANELOST: feed, cause, lanes whose mark was clear (spec/12). DESIGN CHOICE (log 58): an unused lane is
not named. -/
def Feed.lostDetail (f : Feed) (x : Side) (cause : Nat) : List Byte :=
  be 1 x.code ++ be 1 cause ++ [(f.setup.lacking f.watch.marks).byte, 0]

/-- The close of a watch period (R29), with a confirmed loss handed on (R30) or a return confirmed (R31). -/
def closePeriod (x : Side) (s : State) : State :=
  let f := s.feed x
  let w := f.watch.closed f.verdict f.rs.i
  let s1 := s.setFeed x { f with watch := w }
  if w.absent && !f.watch.absent then lossTaken x (raise .lanelost (f.lostDetail x 0) s1)
  else if f.watch.absent && !w.absent then raise .lanelost (f.lostDetail x 1) s1
  else s1

/-- WATCH_PERIOD_CLOSE, where the close is due. -/
def watchClose (x : Side) (s : State) : State :=
  if !s.resetLine && ((caughtUp s).feed x).closeDue then closePeriod x (caughtUp s) else s

def execWatchPeriodClose (x : Side) (s : State) : Host.Outcome State Fault Refusal := .next (watchClose x s)

/-- A block event falls: the open watch period and a part-received block count it (R15, R29). -/
def Receiver.blockFell : Receiver → Receiver
  | .heading got silent => .heading got (silent + 1)
  | .receiving v body due silent => .receiving v body due (silent + 1)
  | .hunting => .hunting
  | .halfSync => .halfSync

def Feed.blockFell (f : Feed) : Feed :=
  { f with
    rx0 := f.rx0.blockFell, rx1 := f.rx1.blockFell
    watch := if f.watchJudges then { f.watch with blocks := f.watch.blocks + 1 } else f.watch }

end Sys2Proof.Machine
end

