-- ==== Sys2Proof/Machine/Resample.lean ====
section
/-!
DEFINITION. Rate tracking and resampling (spec/05), and the program inputs that the selector forms from it (spec/06):
frames present, absent and patched; interpolation; the half-band stage; the servo; the advance.
-/

namespace Sys2Proof.Machine

open Sys2Proof

/-! ## Frames (R75 to R78) -/

/-- Classes of a frame at a read (R75). -/
inductive FrameClass where
  | outside | notArrived | damaged | present
  deriving DecidableEq, Repr

/-- Is a frame outside the program (R75, R76)? -/
def Feed.outsideProgram (f : Feed) (t : Int) : Bool :=
  decide (t < f.startPos) || (f.count != 0 && decide ((f.startPos + f.count : Nat) ≤ t)) ||
    (match f.sourceEnd with | some e => decide ((e : Int) < t) | none => false) || decide ((Config.posEnd : Int) ≤ t)

/-- The class of a frame (R75). A frame below the head whose slot holds another stamp is read as damaged. -/
def Feed.classify (f : Feed) (t : Int) : FrameClass :=
  if f.outsideProgram t then .outside
  else
    let v := f.slotAt t.toNat
    let own := v.stamp == some (32 * (t.toNat / 32))
    if own && v.state == .good then .present
    else if decide (f.h ≤ t.toNat) || (own && v.state == .filling) then .notArrived
    else .damaged

/-- A read of a ring word that failed (R42): the ring, the channel and the frame. -/
structure RingFail where
  ring    : Side
  channel : Nat
  frame   : Nat
  deriving DecidableEq, Repr

/-- A value read, with the reads that failed in it. -/
abbrev ReadResult := Int × List RingFail

/-- The word of a ring read for a reader's point, with the reread (R41, R42, R78). -/
def State.readRing (s : State) (passing : List Access) (reader ring : Side) (c tap frame : Nat) : ReadResult :=
  let w := s.mem.read (s.ringAddr ring c frame)
  if readFails passing (.feed reader) c tap w then (0, [{ ring := ring, channel := c, frame := frame }])
  else (w.sample.toInt, [])

/-- May an absent frame of a feed be patched from the other (R77)? -/
def State.patches (s : State) (x : Side) (t : Int) : Bool :=
  let f := s.feed x
  let g := s.feed x.other
  s.sel.patch && (f.role == .leader || f.role == .outgoing) && g.isRead && f.rs.rNom == g.rs.rNom &&
    f.setup.n == g.setup.n && g.classify t == .present

/-- The sample of a frame as a feed reads it: its own, patched, or 0 (R75 to R78). -/
def State.readFrame (s : State) (passing : List Access) (x : Side) (c tap : Nat) (t : Int) : ReadResult :=
  match (s.feed x).classify t with
  | .present => s.readRing passing x x c tap t.toNat
  | .outside => (0, [])
  | .notArrived | .damaged =>
    if s.patches x t then s.readRing passing x x.other c tap t.toNat else (0, [])

/-! ## Interpolation (R81 to R83) -/

/-- The cubic of R82, in its fixed order. -/
def cubic (p0 p1 p2 p3 : Int) (u : Nat) : Int :=
  let a := p2 - p0
  let b := 2 * p0 - 5 * p1 + 4 * p2 - p3
  let c := (p3 - p0) + 3 * (p1 - p2)
  let v := ((c * u) >>> 16) + b
  let v := ((v * u) >>> 16) + a
  sat24 (p1 + ((v * u) >>> 17))

/-- The half-band sum of R83 on its five samples, saturated. -/
def halfBand (m3 m1 x p1 p3 : Int) : Int := sat24 ((-m3 + 9 * m1 + 16 * x + 9 * p1 - p3) >>> 5)

/-- The frames that a point takes: its own, or the five of the half-band sum (R81, R83). -/
def pointFrames (double : Bool) (t : Int) : List Int := if double then [t - 3, t - 1, t, t + 1, t + 3] else [t]

/-- The frame of a tap: five taps to a point, counted in the order of R82 and R83. -/
def Feed.tapFrame (f : Feed) (double : Bool) (tap : Nat) : Int :=
  (pointFrames double ((f.rs.i : Int) - 1 + (tap / 5 : Nat))).getD (tap % 5) 0

/-! ## The order of the reads of a house sample (R79) -/

/-- A slot marked DAMAGED by a failed read (R42). -/
def damageSlot (e : RingFail) (s : State) : State :=
  s.onFeed e.ring fun f => f.setSlot e.frame { f.slotAt e.frame with state := .damaged }

/-- A ring read that has been made. -/
structure MadeRead where
  read   : RingRead
  result : ReadResult
  deriving DecidableEq, Repr

/-- Every ring read that a feed makes at a house sample (R81, R83, R84). -/
def State.feedReads (s : State) (x : Side) : List RingRead :=
  if (s.feed x).isRead then
    (List.range (s.feed x).setup.n).flatMap fun c => (List.range 4).flatMap fun k =>
      (List.range (if (s.feed x).setup.isDouble s.clock.rateClass then 5 else 1)).map fun j =>
        { feed := x, channel := c, tap := 5 * k + j }
  else []

/-- A ring read made in a state. -/
def State.makeRead (s : State) (passing : List Access) (r : RingRead) : ReadResult :=
  s.readFrame passing r.feed r.channel r.tap
    ((s.feed r.feed).tapFrame ((s.feed r.feed).setup.isDouble s.clock.rateClass) r.tap)

/-- The failures that a late read finds marked: those of the reads made before it for another feed or channel. Reads for
its own channel each stand on their own check (R78, R79). -/
def marksFound (made : List MadeRead) (r : RingRead) : List RingFail :=
  (made.filter fun m => m.read.feed != r.feed || m.read.channel != r.channel).flatMap fun m => m.result.2

/-- A late read made after others, on the ring as their failures left it (R79). -/
def State.makeLate (s : State) (passing : List Access) (made : List MadeRead) (r : RingRead) : List MadeRead :=
  made ++ [{ read := r, result := ((marksFound made r).foldl (fun t e => damageSlot e t) s).makeRead passing r }]

/-- The ring reads of a house sample that has late ones, all made: those that are not late, and then the late ones in
their order (R79). With none late every read is made in the state as it stands, and none is listed. -/
def State.readsMade (s : State) (reads : SampleReads) : List MadeRead :=
  if reads.late.isEmpty then []
  else
    let all := s.feedReads .a ++ s.feedReads .b
    (reads.late.filter fun r => all.contains r).eraseDups.foldl (s.makeLate reads.passing)
      ((all.filter fun r => !reads.late.contains r).map fun r => { read := r, result := s.makeRead reads.passing r })

/-- The result of a ring read of a frame: as it was made, where the house sample has late reads. -/
def State.ringRead (s : State) (passing : List Access) (made : List MadeRead) (r : RingRead) (t : Int) : ReadResult :=
  match made.find? fun m => m.read == r with
  | some m => m.result
  | none => s.readFrame passing r.feed r.channel r.tap t

/-- The reads of the k-th point (R81, R83). -/
def State.pointReads (s : State) (passing : List Access) (made : List MadeRead) (x : Side) (c k : Nat) (double : Bool)
    (t : Int) : List ReadResult :=
  (pointFrames double t).mapIdx fun j u => s.ringRead passing made { feed := x, channel := c, tap := 5 * k + j } u

/-- The value of a point from its reads (R81, R83). -/
def pointValue (double : Bool) (rs : List ReadResult) : Int :=
  let v := fun k => (rs.getD k (0, [])).1
  if double then halfBand (v 0) (v 1) (v 2) (v 3) (v 4) else v 0

/-- The value of a channel, with the reads that failed in it (R81 to R83). -/
def State.channelValue (s : State) (passing : List Access) (made : List MadeRead) (x : Side) (c : Nat) : ReadResult :=
  let f := s.feed x
  let double := f.setup.isDouble s.clock.rateClass
  let reads := fun k : Nat => s.pointReads passing made x c k double ((f.rs.i : Int) - 1 + k)
  let p := fun k => pointValue double (reads k)
  (cubic (p 0) (p 1) (p 2) (p 3) (f.rs.phi / 4096),
    ((List.range 4).flatMap fun k => (reads k).flatMap fun r => r.2))

/-- The values of a feed's channels; a feed that is not read gives none (R84). -/
def State.feedValues (s : State) (reads : SampleReads) (x : Side) : List ReadResult :=
  let made := s.readsMade reads
  if (s.feed x).isRead then (List.range (s.feed x).setup.n).map fun c => s.channelValue reads.passing made x c else []

/-- The frames of the read window, rising (R81). -/
def Feed.window (f : Feed) (house : Rate) : List Int :=
  if f.setup.isDouble house then (List.range 10).map fun k : Nat => (f.rs.i : Int) - 4 + k
  else (List.range 4).map fun k : Nat => (f.rs.i : Int) - 1 + k

/-- The lowest frame of the window that has not arrived (R80, log 21). -/
def State.missingFrame (s : State) (x : Side) : Option Int :=
  ((s.feed x).window s.clock.rateClass).find? fun t => (s.feed x).classify t == .notArrived

/-- SLIP underrun for the leader, at most once in a block interval, not while its lanes are ABSENT (R80). -/
def noteUnderrun (s : State) : State :=
  match s.sel.state.leader with
  | none => s
  | some x =>
    match s.missingFrame x with
    | none => s
    | some t =>
      if (s.feed x).isRead && !(s.feed x).rs.underrun && !(s.feed x).watch.absent then
        raise .slip (be 1 x.code ++ be 1 1 ++ low16 (t.toNat / 32))
          (s.onFeed x fun f => { f with rs := { f.rs with underrun := true } })
      else s

/-- One failed ring read taken: its slot DAMAGED, MEMFAULT raised (R42). -/
def markFail (e : RingFail) (s : State) : State :=
  raise .memfault (be 1 e.ring.code ++ be 1 e.channel ++ low16 (e.frame / 32)) (damageSlot e s)

/-- The failed reads of a house sample taken (R42); what a late read found of them is in `State.readsMade` (R79,
log 10). -/
def markFails (fails : List RingFail) (s : State) : State := fails.foldl (fun s e => markFail e s) s

/-! ## Program inputs (R90, R98) -/

/-- A program input from the two feeds' values for its channel (R90, R98). -/
def Selector.input (v : Selector) (va vb : Int) : Int :=
  let val : Side → Int := fun x => match x with | .a => va | .b => vb
  match v.state with
  | .silent => 0
  | .onair x => val x
  | .rise x => (val x * v.n) >>> v.kx
  | .fade x => (val x * (v.len - v.n : Nat)) >>> v.kx
  | .xfade x =>
    if v.abandoned then
      let r := v.len - v.n0
      let wx := r - v.j
      let wy := v.n0 * (r - v.j) / r
      ((wx : Nat) * val x + (wy : Nat) * val x.other) >>> v.kx
    else ((v.len - v.n : Nat) * val x + v.n * val x.other) >>> v.kx

/-- The 96 program inputs of a house sample (R88, R90). -/
def State.programInputs (s : State) (va vb : List ReadResult) : List Int :=
  (List.range 96).map fun c =>
    match s.sel.state.leader with
    | none => 0
    | some x =>
      if c < (s.feed x).setup.n then s.sel.input (va.getD c (0, [])).1 (vb.getD c (0, [])).1 else 0

/-! ## The read positions (R69 to R71, R88) -/

/-- At a crossfade's first house sample the incoming feed takes the outgoing feed's ratio and integrator if it is
streaming, r_nom and 0 if it is paced (R71). -/
def inheritRatio (s : State) : State :=
  match s.sel.state with
  | .xfade x =>
    if s.sel.formed = 0 then
      s.onFeed x.other fun f =>
        { f with
          rs := if f.setup.mode = .streaming then { f.rs with r := (s.feed x).rs.r, acc := (s.feed x).rs.acc }
            else { f.rs with r := f.rs.rNom, acc := 0 } }
    else s
  | _ => s

/-- A feed that is read and does not lead takes a position (R70). -/
def Feed.follow (f : Feed) (pos phase : Nat) : Feed :=
  { f with rs := if f.isRead then f.rs.slaved pos phase else f.rs }

/-- The leader advances and its position is published; every other feed that is read takes it (R69, R70, R88). -/
def advancePositions (s : State) : State :=
  match s.sel.state.leader with
  | none => (s.onFeed .a fun f => f.follow s.sel.pos s.sel.phase).onFeed .b fun f => f.follow s.sel.pos s.sel.phase
  | some x =>
    let v := (s.feed x).rs.advanced
    ((s.onFeed x fun f => { f with rs := v }).onFeed x.other fun f => f.follow v.i v.phi).onSel fun u =>
      { u with pos := v.i, phase := v.phi }

/-- At a rise's first house sample a standby's aligned flag becomes not aligned (R91). -/
def riseUnaligns (s : State) : State :=
  match s.sel.state with
  | .rise x =>
    if s.sel.n = 0 ∧ (s.feed x.other).isStandby = true then setAligned x.other false s else s
  | _ => s

/-- One more house sample of the transition has been formed (R89, R98). -/
def Selector.counted (v : Selector) : Selector :=
  if v.state.inTransition then
    (if v.abandoned then { v with j := v.j + 1 } else { v with n := v.n + 1 })
  else v

/-- The feed heard at a house sample: the leader (R105). -/
def Selector.hears (v : Selector) : Selector :=
  { v with lastHeard := match v.state.leader with | some x => some x | none => v.lastHeard }

/-! ## Ends (R55, R103) -/

/-- A slaved feed completes with the leader: a RUNNING one with the leader's reason, an ENDING one with its own
(R55). -/
def completeWith (x : Side) (reason : Reason) (s : State) : State :=
  match (s.feed x).st with
  | .running => completeFeed x reason s
  | .ending => completeFeed x ((s.feed x).ending.getD .stopped) s
  | _ => s

/-- The leader x has reached its end: every feed that is read completes and the selector is SILENT at once (R55,
R103). DESIGN CHOICE (log 49): a RUNNING slaved feed that is past its own end too takes the leader's reason, by R55's
first row. -/
def leaderEnds (x : Side) (s : State) : State :=
  let reason := if (s.feed x).st = .ending then (s.feed x).ending.getD .stopped else (s.feed x).endReason
  enterSilent (some x) .ended (completeWith x.other reason (completeFeed x reason s))

/-- The standby that has reached its own end completes; an OUTGOING feed goes on (R55). -/
def standbyEnds (x : Side) (s : State) : State :=
  if (s.feed x).isStandby && (s.feed x).atEnd then completeFeed x (s.feed x).endReason s else s

/-- The ends of a house sample, after the read positions have moved (R55). -/
def takeEnds (s : State) : State :=
  match s.sel.state.leader with
  | none => standbyEnds .b (standbyEnds .a s)
  | some x =>
    if (s.feed x).isRead && (s.feed x).atEnd then leaderEnds x s else standbyEnds x.other s

/-! ## The servo (R72, R73) -/

/-- One servo step of a resampler with fill F and target T (R73). -/
def Resampler.servo (v : Resampler) (fill target : Nat) : Resampler :=
  let e : Int := (fill : Int) - target
  let acc := max (-1048576) (min 1048575 (v.acc + e))
  let offset := e * 64 + (acc >>> 4)
  let limit : Int := (v.rNom / 512 : Nat)
  let cut := max (-limit) (min limit offset)
  { v with r := ((v.rNom : Int) + cut).toNat, acc := acc, servoErr := e, clamped := cut != offset }

/-- The servo step of a block event, for a streaming leader (R72); a clamped step raises TRACKLIMIT (R73). -/
def servoStep (s : State) : State :=
  match s.sel.servoLeader with
  | none => s
  | some x =>
    let f := s.feed x
    if f.isRead ∧ f.setup.mode = .streaming then
      let v := f.rs.servo f.fill f.setup.target
      raiseIf v.clamped .tracklimit
        (be 1 x.code ++ be 1 (if (f.rs.rNom : Int) < v.r then 0 else 1) ++ beInt 2 v.servoErr)
        (s.setFeed x { f with rs := v })
    else s

/-- The underrun mark is cleared at each block event (R80). -/
def Feed.clearUnderrun (f : Feed) : Feed := { f with rs := { f.rs with underrun := false } }

end Sys2Proof.Machine
end

