-- ==== Sys2Proof/Machine/BlockEvent.lean ====
section
/-!
DEFINITION. The block event and what is taken at it: the clock's return, the scrub, the servo, the judgements of the
selector, releases, cues, the end of STARTING, an on-air STOP and an ONAIR (spec/01, spec/06).
-/

namespace Sys2Proof.Machine

open Sys2Proof

/-! ## House clock (R6, R12) -/

/-- The detail of CLOCK: 0 loss, 1 return (spec/12). -/
def clockDetail (cause : Nat) : List Byte := be 1 cause ++ [0, 0, 0]

/-- The clock following word clock in again: return watch idle at count 0, the loss measure from here (R6). -/
def Clock.returned (c : Clock) : Clock :=
  { c with state := .following, watch := .idle, good := 0, lossMeasure := 0 }

/-- Is the switch of R6 due at this block event? -/
def Clock.returnDue (c : Clock) : Bool := c.state == .holdover && c.good == 2

/-- The first block event after the good-period count has reached 2 (R6). -/
def clockReturn (s : State) : State :=
  if s.clock.returnDue then raise .clock (clockDetail 1) { s with clock := s.clock.returned } else s

/-- The scrub of a block event in STARTING (R12). -/
def scrubStep (s : State) : State :=
  if s.clock.scrubPage < 1024 then
    { s with
      mem := s.mem.scrub s.clock.scrubPage
      clock := { s.clock with scrubPage := s.clock.scrubPage + 1 } }
  else s

/-! ## BLOCK_EVENT (R9) -/

/-- The selector's judgements of a block event and the finished releases (R91, R92, R126). -/
def selectorJudgements (s : State) : State := removeReleased (takePrimed (judgeAlignment s))

/-- The block event's work while RUNNING (R72, R80, R91, R92, R126, R160). Where spec/ lets the cue pass come on
either side of the other judgements, `cuesFirst` says which (log 7). -/
def runningBlock (cuesFirst : Bool) (s : State) : State :=
  let t := servoStep ((s.onFeed .a Feed.clearUnderrun).onFeed .b Feed.clearUnderrun)
  if cuesFirst then selectorJudgements (cuePass t) else cuePass (selectorJudgements t)

/-- The block event, with the level sampled on the MUTE line (R143). DESIGN CHOICE (log 72): no command falls between
two notices that it raises. -/
def blockWork (mute cuesFirst : Bool) (s : State) : State :=
  let t := sampleMute (clockReturn { s with blockDue := false, mutePin := mute })
  if t.starting then removeReleased (scrubStep t) else runningBlock cuesFirst t

/-- BLOCK_EVENT: it falls when a house sample event has made the counter a multiple of 32 (R9, log 4); none falls while
the RESET line is asserted (R13). DESIGN CHOICE (log 60): a source of a mute that it changes, by the MUTE line or by a
group cue, is changed after the mute step of its house sample, where R138 allows either order. -/
def blockEvent (mute cuesFirst : Bool) (s : State) : State :=
  if s.blockDue && !s.resetLine then blockWork mute cuesFirst (caughtUp s) else s

def execBlockEvent (mute cuesFirst : Bool) (s : State) : Host.Outcome State Fault Refusal :=
  .next (blockEvent mute cuesFirst s)

/-! ## STARTUP_END (R12) -/

/-- The scrub page has reached 1024: the phase becomes RUNNING (R12). -/
def startupEnd (s : State) : State :=
  if !s.resetLine && s.starting && decide (1024 ≤ s.clock.scrubPage) then
    { s with clock := { s.clock with phase := .running } }
  else s

def execStartupEnd (s : State) : Host.Outcome State Fault Refusal := .next (startupEnd s)

/-! ## TRANSITION_END (R89) -/

/-- The last house sample of a transition has been formed (R89). -/
def transitionEnd (s : State) : State := if s.resetLine then s else caughtUp s

def execTransitionEnd (s : State) : Host.Outcome State Fault Refusal := .next (transitionEnd s)

/-! ## Awaiting commands at their block event (R100, R101) -/

/-- The selector's code after an ONAIR (R101): the data of its answer, which a refusal does not carry (spec/12). -/
def onairData (res : ResultCode) (s : State) : List Byte :=
  match res with
  | .ok => be 1 s.sel.state.code
  | _ => []

/-- An awaiting ONAIR taken at its block event (R101). -/
def onairTaken (feed : Byte) (s : State) : State :=
  match onairSteps feed.toNat s with
  | (res, t) => complete .system res (onairData res t) t

/-- The command whose turn it is: the first that reached the selector, once its block event has fallen (R100). -/
def Selector.turn (v : Selector) : Option AwaitedOrder :=
  match v.awaiting with
  | e :: _ => if e.due then some e.order else none
  | [] => none

/-- The selector with its first awaiting command taken out. -/
def Selector.turnTaken (v : Selector) : Selector := { v with awaiting := v.awaiting.tail }

/-- A command taken (R100, R101). -/
def orderTaken (o : AwaitedOrder) (s : State) : State :=
  match o with
  | .stop r x handover => stopTaken r x handover s
  | .onair feed => onairTaken feed s

/-- The command whose turn it is leaves the selector and is taken (R100, R101). -/
def turnTake (s : State) : State :=
  match s.sel.turn with
  | some o => orderTaken o ((caughtUp s).onSel Selector.turnTaken)
  | none => s

/-- A role's awaiting STOP is taken at its block event, when its turn has come (R100). -/
def stopTake (r : Role) (s : State) : State :=
  if s.resetLine then s
  else
    match s.sel.turn with
    | some (.stop q _ _) => if q = r then turnTake s else s
    | _ => s

def execStopOnAirTake (r : Role) (s : State) : Host.Outcome State Fault Refusal := .next (stopTake r s)

/-- The awaiting ONAIR is taken at its block event, when its turn has come (R101). -/
def onairTake (s : State) : State :=
  if s.resetLine then s
  else
    match s.sel.turn with
    | some (.onair _) => turnTake s
    | _ => s

def execOnairTake (s : State) : Host.Outcome State Fault Refusal := .next (onairTake s)

end Sys2Proof.Machine
end

