-- ==== Sys2Proof/Machine/HouseSample.lean ====
section
/-!
DEFINITION. The house sample event and the clock rows that make it or move the clock state (spec/01), with what falls
due at it: the block event, the windows, the awaiting commands.
-/

namespace Sys2Proof.Machine

open Sys2Proof

/-! ## The return watch (R5) -/

/-- A house sample event counted by an open return-watch period (R5). -/
def ReturnWatch.counted : ReturnWatch → ReturnWatch
  | .counting c => .counting (c + 1)
  | w => w

/-- Has the open period reached 1024 house samples (R5)? -/
def ReturnWatch.full : ReturnWatch → Bool
  | .counting c => Config.returnPeriod ≤ c
  | _ => false

/-- The period ends good: a second one opens, or the watch waits for the switch of R6 (R5). -/
def Clock.periodGood (c : Clock) : Clock :=
  { c with good := min (c.good + 1) 2, watch := if c.good = 0 then .counting 0 else .waiting }

/-- RETURN_PERIOD_GOOD, where a full period is open in HOLDOVER. -/
def returnGood (s : State) : State :=
  if !s.resetLine && s.clock.state == .holdover && s.clock.watch.full then { s with clock := s.clock.periodGood }
  else s

def execReturnPeriodGood (s : State) : Host.Outcome State Fault Refusal := .next (returnGood s)

/-- A loss condition, watch counting or waiting (R5). -/
def Clock.lossCondition (c : Clock) : Clock :=
  match c.watch with
  | .idle => c
  | _ => { c with watch := .idle, good := 0 }

/-- LOSS_CONDITION in HOLDOVER (R5); the watch does not count while the master clock is stopped (R1). -/
def lossCondition (s : State) : State :=
  if s.mclkStopped then s
  else if s.clock.state = .holdover then { s with clock := s.clock.lossCondition } else s

def execLossCondition (s : State) : Host.Outcome State Fault Refusal := .next (lossCondition s)

/-- WORD_CLOCK_LOSS in FOLLOWING (R4); the notice is not queued while the RESET line is asserted (R13), and the watch
does not count while the master clock is stopped (R1). -/
def wordClockLoss (s : State) : State :=
  if s.mclkStopped then s
  else if s.clock.state = .following then
    raise .clock (clockDetail 0) { s with clock := { s.clock with state := .holdover, watch := .idle, good := 0 } }
  else s

def execWordClockLoss (s : State) : Host.Outcome State Fault Refusal := .next (wordClockLoss s)

/-! ## FLUSH_COMPLETE (R177) -/

/-- The data of FLUSH's answer (spec/12). -/
def FlushFound.bytes (v : FlushFound) : List Byte := [v.selState] ++ cap16 v.routes ++ cap8 v.cues

/-- The interface with the FLUSH in execution over. -/
def Bus.flushDone (b : Bus) : Bus := { b with flush := none }

/-- Every owner has taken the FLUSH: the command completes with OK (R177). -/
def flushComplete (s : State) : State :=
  if s.resetLine then s
  else
    match s.bus.flush with
    | some v => complete .system .ok v.bytes { s with bus := s.bus.flushDone }
    | none => s

def execFlushComplete (s : State) : Host.Outcome State Fault Refusal := .next (flushComplete s)

/-! ## What must be over before the next house sample event (log 4) -/

/-- The expiries of both feeds' pace windows (R27, R28). -/
def expiries (s : State) : State := burstExpiry .b (burstExpiry .a (paceExpiry .b (paceExpiry .a s)))

/-- Every stale lane receiver drops its block (R15). -/
def abandons (s : State) : State :=
  laneAbandon .b .l1 (laneAbandon .b .l0 (laneAbandon .a .l1 (laneAbandon .a .l0 s)))

/-- The awaiting commands whose block event has fallen, in the order in which they reached the selector (R100). -/
def dueOrders (s : State) : State := (s.sel.awaiting.filter fun e => e.due).foldl (fun s _ => turnTake s) s

/-- Whatever fell due at the last house sample event and whose row has not been taken is taken before the next one, in
one fixed order (log 4): the end of a transition, the pace windows, the return watch, a FLUSH's end, the block event
with the level the MUTE line was last given, the end of STARTING, abandoned blocks, watch periods, the awaiting STOPs
and ONAIR in the order of their arrival, the copy and the take. -/
def settleWork (s : State) : State :=
  let s1 := flushComplete (returnGood (expiries (transitionEnd s)))
  let s2 := startupEnd (blockEvent s1.mutePin false s1)
  serveTake (serveCopy (dueOrders (watchClose .b (watchClose .a (abandons s2)))))

/-- Nothing is due while the RESET line is asserted (R13). -/
def settle (s : State) : State := if s.resetLine then s else settleWork s

/-! ## The house sample event -/

/-- Every ramping active route advances by one step (R125). -/
def rampStep (s : State) : State :=
  { s with scene := { s.scene with active := s.scene.active.map ActiveRoute.advanced } }

/-- The resamplers', the selector's and the feeds' work at a house sample event (R69 to R71, R75 to R84, R88 to R91,
R55, R105), given the values that the feeds produce. DESIGN CHOICE (log 50): a leader that reaches its end at a
transition's last house sample ends first, by R55 and R103, and the transition's own end does not come. -/
def programStep (va vb : List ReadResult) (s : State) : State :=
  takeEnds
    ((markFails ((va ++ vb).flatMap Prod.snd) (riseUnaligns (advancePositions (noteUnderrun s)))).onSel
      fun v => v.counted.hears)

/-- A house sample event of RUNNING (R8): the pace state, the values, the read positions, the program inputs, the ends,
the ramps, the mix and the output stage. DESIGN CHOICE (log 71): a pace window that reaches 128 at the house sample
event at which its feed completes (R55) is closed by the completion, and does not expire. -/
def runningSample (reads : SampleReads) (s : State) : State :=
  let t := inheritRatio ((s.onFeed .a fun f => f.paceSample false).onFeed .b fun f => f.paceSample false)
  let va := t.feedValues reads .a
  let vb := t.feedValues reads .b
  outputStage reads.passing (t.programInputs va vb) (rampStep (programStep va vb t))

/-- A house sample event of STARTING: ramps and mute steps alone (R12, R129, R139). -/
def startingSample (s : State) : State := outputStarting (rampStep s)

/-- A command waits for a block event that falls now. -/
def Await.fell : Await → Await
  | .waiting => .due
  | w => w

/-- A block event falls (R9): the awaiting commands are due, and while RUNNING the feed units count it (R12). -/
def blockFalls (s : State) : State :=
  { s with
    blockDue := true
    feedA := if s.starting then s.feedA else s.feedA.blockFell
    feedB := if s.starting then s.feedB else s.feedB.blockFell
    sel := { s.sel with awaiting := s.sel.awaiting.map fun e => { e with due := true } }
    scene := { s.scene with copy := s.scene.copy.fell, take := s.scene.take.fell } }

/-- A house sample event on which the counter's new value is a multiple of 32 is also a block event (R9). -/
def markBlock (s : State) : State := if s.clock.counter.toNat % 32 = 0 then blockFalls s else s

/-- The house sample counter, word clock out and the return watch at a house sample event (R5, R7, R8). -/
def Clock.sampled (c : Clock) : Clock :=
  { c with
    counter := c.counter + 1, wclkOut := c.wclkOut + 1
    watch := if c.state = .holdover then c.watch.counted else c.watch }

/-- The blocks' work at a house sample event, by the start-up phase (R8, R12). -/
def sampleWork (reads : SampleReads) (s : State) : State :=
  if s.starting then startingSample s else runningSample reads s

/-- A house sample event with the RESET line negated (R8). -/
def makeSample (reads : SampleReads) (s : State) : State :=
  markBlock (sampleWork reads { s with clock := s.clock.sampled })

/-- A house sample event while the RESET line is asserted: word clock out shows it, every slot carries 0, and nothing
else acts (R13). -/
def heldSample (s : State) : State :=
  { s with clock := { s.clock with wclkOut := s.clock.wclkOut + 1 }, slots := List.replicate 64 0 }

/-- A house sample event (R8, R13). DESIGN CHOICE (log 72): no command falls between two notices that it raises. -/
def houseSample (reads : SampleReads) (s : State) : State :=
  if s.resetLine then heldSample s else makeSample reads s

/-! ## The divider and word clock in (R1 to R4) -/

/-- The divider begins again from 0 and loads N (R1, log 19). -/
def Clock.restarted (c : Clock) : Clock := { c with divCount := 0, loadedN := c.n }

/-- A terminal count of the divider: a house sample event in INTERNAL and HOLDOVER, none in FOLLOWING; it does not come
while the master clock is stopped (R1). -/
def terminalCount (reads : SampleReads) (s : State) : State :=
  if s.mclkStopped then s
  else if s.clock.state = .following then { s with clock := s.clock.restarted }
  else houseSample reads { s with clock := s.clock.restarted }

/-- DIVIDER_TERMINAL_COUNT (R1); what fell due before it is over first (log 4). -/
def execDividerTerminalCount (reads : SampleReads) (s : State) : Host.Outcome State Fault Refusal :=
  .next (terminalCount reads (settle s))

/-- An edge of word clock in, watch idle: the watch begins counting; with the RESET line asserted it stays idle
(R5, R13). -/
def Clock.edgeInHoldover (c : Clock) (held : Bool) : Clock :=
  { c with lossMeasure := 0, watch := if c.watch = .idle ∧ held = false then .counting 0 else c.watch }

/-- An edge in FOLLOWING sets the divider count and the loss measure to 0 (R3, R4). -/
def Clock.edgeInFollowing (c : Clock) : Clock := { c.restarted with lossMeasure := 0 }

/-- An edge of word clock in FOLLOWING: one house sample event (R3), but none while the master clock is stopped (R1).
DESIGN CHOICE (log 61): the divider count and the loss measure are set to 0 there all the same. -/
def followedEdge (reads : SampleReads) (s : State) : State :=
  if s.mclkStopped then { s with clock := s.clock.edgeInFollowing }
  else houseSample reads { s with clock := s.clock.edgeInFollowing }

/-- An edge of word clock in, by the clock state (R2, R3, R5). -/
def wordClockEdge (reads : SampleReads) (s : State) : State :=
  match s.clock.state with
  | .internal => s
  | .following => followedEdge reads s
  | .holdover => { s with clock := s.clock.edgeInHoldover s.resetLine }

/-- WORD_CLOCK_EDGE; what fell due before it is over first (log 4), and it brings whether the master clock is stopped
(log 61). -/
def execWordClockEdge (edge : WordEdge) (s : State) : Host.Outcome State Fault Refusal :=
  .next (wordClockEdge edge.reads { settle s with mclkStopped := edge.stopped })

/-! ## One period of the master clock (R1, R4, R5) -/

/-- The reads of a house sample event of an idle step: none meets a passing fault and none is late (log 9, log 10). -/
def quietReads : SampleReads := { passing := [], late := [] }

/-- The divider counts one period; at the terminal count it begins again from 0 (R1). -/
def dividerTick (s : State) : State :=
  if 4 * (s.clock.loadedN + 1) ≤ s.clock.divCount + 1 then terminalCount quietReads s
  else { s with clock := { s.clock with divCount := s.clock.divCount + 1 } }

/-- 2048 periods have passed with no edge: a loss in FOLLOWING, a loss condition in HOLDOVER (R4, R5). A unit that has
just become HOLDOVER has its watch idle, so the loss condition changes nothing there. -/
def measureFull (s : State) : State :=
  lossCondition (wordClockLoss { s with clock := { s.clock with lossMeasure := 0 } })

/-- The loss measure counts one period in FOLLOWING and HOLDOVER (R4, R5). -/
def measureTick (s : State) : State :=
  if s.clock.state = .internal then s
  else if Config.lossPeriods ≤ s.clock.lossMeasure + 1 then measureFull s
  else { s with clock := { s.clock with lossMeasure := s.clock.lossMeasure + 1 } }

/-- One period of the master clock: what an idle step is (log 1). What fell due before it is over first; the divider
goes before the loss measure, so a terminal count that coincides with a detected loss makes no event (R4). DESIGN CHOICE
(log 51): a loss condition that this period completes is taken before the block event that its house sample makes, so
R6 does not switch there. While the master clock is stopped no period passes (R1). -/
def tick (s : State) : State :=
  if s.mclkStopped then settle s else measureTick (dividerTick (settle s))

/-! ## WORD_PARITY_FAULT (R36) -/

/-- A word's parity goes bad (R36); the store has no word at or above 1,048,576. -/
def execWordParityFault (a : Nat) (s : State) : Host.Outcome State Fault Refusal :=
  if a < Config.memWords then .next { s with mem := s.mem.spoil a } else .fault .noSuchWord

end Sys2Proof.Machine
end

