-- ==== Sys2Proof/Machine/OnAir.lean ====
section
/-!
DEFINITION. The selector's commands: ONAIR and POLICY (spec/06).
-/

namespace Sys2Proof.Machine

open Sys2Proof

/-- ONAIR waits for the next block event (R101). -/
def onair (p : List Byte) (s : State) : State :=
  s.onSel fun v => { v with awaiting := v.awaiting ++ [{ order := .onair (p.getD 0 0), due := s.blockDue }] }

def execOnair (addr : BitVec 7) (p : List Byte) (s : State) : Host.Outcome State Fault Refusal :=
  .next (takeFrame 0x45 addr p (fun r => lengthChecked (p.length == 1) r (onair p)) s)

/-- A policy's kx brought within 5 to 10 (R104). -/
def clampKx (kx : Nat) : Nat := if kx < 5 then 5 else if 10 < kx then 10 else kx

/-- POLICY (R104). PATCH and the preferred feed are checked before the selector's state, in the order of R104's
sentences (DEDUCED, log 67). -/
def policy (p : List Byte) (r : Role) (s : State) : State :=
  match boolOf (u8 p 0), sideOf (u8 p 1) with
  | some patch, some x =>
    if s.sel.state.inTransition then complete r .busy [] s
    else
      complete r (if clampKx (u8 p 2) = u8 p 2 then .ok else .clamped)
        (be 1 (bit patch) ++ be 1 x.code ++ be 1 (clampKx (u8 p 2)))
        (s.onSel fun v => { v with patch := patch, preferred := x, policyKx := clampKx (u8 p 2) })
  | _, _ => complete r .range [] s

def execPolicy (addr : BitVec 7) (p : List Byte) (s : State) : Host.Outcome State Fault Refusal :=
  .next (takeFrame 0x46 addr p (fun r => lengthChecked (p.length == 3) r (policy p r)) s)

end Sys2Proof.Machine
end

