-- ==== Sys2Proof/Machine/Playback.lean ====
section
/-!
DEFINITION. The feed commands: FEEDSET, PLAY, STOP, FEEDACK and FEEDSTAT (spec/02, spec/04).
-/

namespace Sys2Proof.Machine

open Sys2Proof

/-! ## FEEDSET (R33, R34) -/

/-- The checks of R33 after the feed state, in order: the setup, or the refusal with its data. -/
def feedsetCheck (p : List Byte) (house : Rate) (pages : Nat) : Except (ResultCode × List Byte) Setup :=
  match setupOf p with
  | none => .error (.range, [1])
  | some u =>
    if u.watchOk house = false then .error (.range, [2])
    else if u.drainOk house = false then .error (.range, [3])
    else if u.fits pages = false then .error (.noRoom, [])
    else .ok u

/-- FEEDSET of feed x (R33, R34). -/
def feedset (p : List Byte) (x : Side) (r : Role) (s : State) : State :=
  if (s.feed x).inPlay then complete r .busy [] s
  else
    match feedsetCheck p s.clock.rateClass (s.pages x) with
    | .error e => complete r e.1 e.2 s
    | .ok u => complete r .ok [] (s.onFeed x fun f => f.install u s.clock.rateClass)

def execFeedset (addr : BitVec 7) (p : List Byte) (s : State) : Host.Outcome State Fault Refusal :=
  .next (takeFrame 0x10 addr p (fun r => lengthChecked (p.length == 8) r (feedset p (feedField p) r)) s)

/-! ## PLAY (R49 to R51) -/

/-- S and N of a PLAY payload. -/
def playParams (p : List Byte) : PlayParams := { pos := field p 1 5, count := field p 6 4 }

/-- PLAY of feed x (R49): taken in IDLE (R50), held in COMPLETE (R51). -/
def play (v : PlayParams) (x : Side) (r : Role) (s : State) : State :=
  if Config.posEnd - 1 < v.pos + v.count then complete r .range [] s
  else if (s.feed x).inPlay then complete r .busy [] s
  else if (s.feed x).st = .complete ∧ (s.feed x).pendingPlay.isSome = true then complete r .pending [] s
  else if s.placed x = false then complete r .noRoom [] s
  else if (s.feed x).st = .complete then
    complete r .ok [1] (s.onFeed x fun f => { f with pendingPlay := some v })
  else complete r .ok [0] (s.onFeed x fun f => f.takePlay v)

def execPlay (addr : BitVec 7) (p : List Byte) (s : State) : Host.Outcome State Fault Refusal :=
  .next (takeFrame 0x11 addr p (fun r => lengthChecked (p.length == 10) r (play (playParams p) (feedField p) r)) s)

/-! ## STOP (R59 to R61) -/

/-- The STOP handed to the selector, which takes it at the next block event (R61, R100). -/
def awaitStop (x : Side) (handover : Bool) (r : Role) (s : State) : State :=
  s.onSel fun v => { v with awaiting := v.awaiting ++ [{ order := .stop r x handover, due := s.blockDue }] }

/-- STOP of feed x, by the feed's state (R59 to R61). -/
def stopFeed (x : Side) (handover : Bool) (r : Role) (s : State) : State :=
  match (s.feed x).st with
  | .idle | .ending => complete r .nothing [0] s
  | .complete =>
    match (s.feed x).pendingPlay with
    | some _ => complete r .ok [1] (s.onFeed x fun f => { f with pendingPlay := none })
    | none => complete r .nothing [0] s
  | .seeking | .primed => complete r .ok [2] (completeFeed x .stopped s)
  | .running =>
    if (s.feed x).role = .leader ∨ (s.feed x).role = .outgoing then awaitStop x handover r s
    else complete r .ok [2] (completeFeed x .stopped s)

/-- STOP: the mode field first (R59). -/
def stop (p : List Byte) (x : Side) (r : Role) (s : State) : State :=
  match boolOf (u8 p 1) with
  | none => complete r .range [] s
  | some fade => stopFeed x (!fade) r s

def execStop (addr : BitVec 7) (p : List Byte) (s : State) : Host.Outcome State Fault Refusal :=
  .next (takeFrame 0x12 addr p (fun r => lengthChecked (p.length == 2) r (stop p (feedField p) r)) s)

/-! ## FEEDACK (R62) -/

/-- The feed after its completion is acknowledged: IDLE, or SEEKING if a PLAY is pending (R62). -/
def Feed.acknowledged (f : Feed) : Feed :=
  match f.pendingPlay with
  | some v => { f.takePlay v with pendingPlay := none }
  | none => { f with st := .idle, completion := none }

/-- FEEDACK of feed x (R62). A COMPLETE feed holds a completion record (R57). -/
def feedack (x : Side) (r : Role) (s : State) : State :=
  match (s.feed x).st, (s.feed x).completion with
  | .complete, some c =>
    complete r .ok (be 1 (reasonCode (some c.reason)) ++ be 5 c.final ++ be 1 (bit (s.feed x).pendingPlay.isSome))
      (s.onFeed x Feed.acknowledged)
  | _, _ => complete r .nothing [] s

def execFeedack (addr : BitVec 7) (p : List Byte) (s : State) : Host.Outcome State Fault Refusal :=
  .next (takeFrame 0x13 addr p (fun r => lengthChecked (p.length == 1) r (feedack (feedField p) r)) s)

/-! ## FEEDSTAT (R32, R63, R85) -/

/-- Five bytes of a stamp that may be none (spec/12). -/
def stampBytes : Option Nat → List Byte
  | some t => be 5 t
  | none => List.replicate 5 0xFF

/-- Bytes 0 to 18 of a FEEDSTAT record; the final position of no record is free (log 14). -/
def Feed.statPlayback (f : Feed) (x : Side) (free : Nat) : List Byte :=
  be 1 x.code ++ be 1 f.st.code ++ be 1 f.role.code ++ be 1 (reasonCode f.ending) ++ be 5 f.startPos ++
    be 4 f.count ++
    (match f.completion with
      | some c => be 1 (reasonCode (some c.reason)) ++ be 5 c.final
      | none => be 1 0 ++ freeBytes free 5)

/-- Bytes 19 to 28: the flags and the pending PLAY, which is free when none is held (log 14). -/
def Feed.statPending (f : Feed) (placed : Bool) (free : Nat) : List Byte :=
  [bitsByte [f.pendingPlay.isSome, placed, f.intakeEnded, f.sourceEnd.isSome]] ++
    (match f.pendingPlay with
      | some v => be 5 v.pos ++ be 4 v.count
      | none => freeBytes free 9)

/-- Bytes 29 to 59: setup and intake (R32); the source end of none is free (log 14). DESIGN CHOICE (log 54): with no
request outstanding and no window open, the try-2 bit is that of the last one. -/
def Feed.statIntake (f : Feed) (free : Nat) : List Byte :=
  f.setup.bytes ++ (if f.h = Config.posEnd then List.replicate 5 0xFF else be 5 f.h) ++ cap16 f.fill ++
    stampBytes f.last0 ++ stampBytes f.last1 ++
    (match f.sourceEnd with
      | some e => be 5 e
      | none => freeBytes free 5) ++
    [bitsByte [f.pace.line, f.pace.isOpen, f.pace.try2]] ++
    be 1 (bit f.watch.armed + 2 * bit f.watch.absent + 4 * f.watch.bad + 16 * f.watch.good +
      64 * bit f.watch.marks.l0 + 128 * bit f.watch.marks.l1)

/-- Bytes 60 to 82: the resampler (R85). -/
def Resampler.stat (v : Resampler) : List Byte :=
  be 4 v.rNom ++ be 4 v.r ++ beInt 3 v.acc ++ be 5 v.i ++ be 4 v.phi ++ beInt 2 v.servoErr ++
    [bitsByte [v.clamped, v.underrun]]

/-- The 83 bytes of a FEEDSTAT record (spec/12). -/
def Feed.stat (f : Feed) (x : Side) (placed : Bool) (free : Nat) : List Byte :=
  f.statPlayback x free ++ f.statPending placed (free + 5) ++ f.statIntake (free + 14) ++ f.rs.stat

/-- FEEDSTAT of feed x (R63). -/
def feedstat (x : Side) (r : Role) (s : State) : State :=
  complete r .ok ((s.feed x).stat x (s.placed x) s.freeCount) (usedFree 19 s)

def execFeedstat (addr : BitVec 7) (p : List Byte) (s : State) : Host.Outcome State Fault Refusal :=
  .next (takeFrame 0x14 addr p (fun r => lengthChecked (p.length == 1) r (feedstat (feedField p) r)) s)

end Sys2Proof.Machine
end

