-- ==== Sys2Proof/Machine/Control.lean ====
section
/-!
DEFINITION. The system controller's commands and the status of the part: CLOCKSET, PARTITION, IDENT, NOTEFETCH,
PROGSTAT, NOTEROUTE, CALLOCK and FLUSH (spec/01, spec/03, spec/10, spec/11).
-/

namespace Sys2Proof.Machine

open Sys2Proof

/-! ## A feed under a new class or a new partition (R11, R34, R45) -/

/-- Checks 1 to 3 of R33. -/
def Setup.passes (u : Setup) (house : Rate) : Bool := u.boundsOk && u.watchOk house && u.drainOk house

/-- What a new class or partition does to a feed. -/
structure FeedChange where
  feed     : Feed
  /-- the setup was replaced by the default -/
  replaced : Bool
  /-- a pending PLAY was dropped -/
  dropped  : Bool
  deriving DecidableEq, Repr

/-- The default feed setup installed; a pending PLAY is dropped if the feed is unplaced under it (R11, R45). -/
def Feed.fallBack (f : Feed) (house : Rate) (pages : Nat) : FeedChange :=
  { feed :=
      { f.install (defaultSetup house) house with
        pendingPlay := if (defaultSetup house).fits pages then f.pendingPlay else none }
    replaced := true
    dropped := f.pendingPlay.isSome && !(defaultSetup house).fits pages }

/-- A feed under a new house rate class (R11). -/
def Feed.reclassed (f : Feed) (house : Rate) (pages : Nat) : FeedChange :=
  if f.setup.passes house then { feed := f.rederive house, replaced := false, dropped := false }
  else f.fallBack house pages

/-- A feed under a new partition (R45). -/
def Feed.repartitioned (f : Feed) (house : Rate) (pages : Nat) : FeedChange :=
  if f.setup.fits pages then { feed := f.clearIntake 0, replaced := false, dropped := false }
  else f.fallBack house pages

/-! ## CLOCKSET (R11) -/

/-- The clock unit with a source, class and N taken (R11). -/
def Clock.set (c : Clock) (source : ClockSource) (house : Rate) (n : Nat) : Clock :=
  match source, c.source with
  | .internal, _ =>
    { c with source := .internal, rateClass := house, n := n, state := .internal, watch := .idle, good := 0 }
  | .external, .internal =>
    { c with source := .external, rateClass := house, n := n, state := .holdover, watch := .idle, good := 0 }
  | .external, .external => { c with rateClass := house, n := n }

/-- May the class change (R11, check 3)? -/
def State.classFree (s : State) : Bool :=
  s.scene.active.isEmpty && s.scene.state == .free && s.feedA.atRest && s.feedB.atRest

/-- What a CLOCKSET does to a feed: nothing unless the class changes (R11). -/
def State.clockFeed (s : State) (x : Side) (house : Rate) : FeedChange :=
  if house = s.clock.rateClass then { feed := s.feed x, replaced := false, dropped := false }
  else (s.feed x).reclassed house (s.pages x)

/-- A CLOCKSET that passes its checks (R11). -/
def clockTaken (source : ClockSource) (house : Rate) (n : Nat) (r : Role) (s : State) : State :=
  let a := s.clockFeed .a house
  let b := s.clockFeed .b house
  complete r (if a.replaced || b.replaced then .clamped else .ok)
    [bitsByte [a.replaced, b.replaced, a.dropped, b.dropped]]
    { s with clock := s.clock.set source house n, feedA := a.feed, feedB := b.feed }

/-- CLOCKSET (R11). -/
def clockset (p : List Byte) (r : Role) (s : State) : State :=
  if s.bus.lock then complete r .locked [] s
  else
    match sourceOf (u8 p 0), rateOf (u8 p 1) with
    | some source, some house =>
      if u8 p 2 < 31 then complete r .range [] s
      else if house ≠ s.clock.rateClass ∧ s.classFree = false then complete r .busy [] s
      else clockTaken source house (u8 p 2) r s
    | _, _ => complete r .range [] s

def execClockset (addr : BitVec 7) (p : List Byte) (s : State) : Host.Outcome State Fault Refusal :=
  .next (takeFrame 0x40 addr p (fun r => lengthChecked (p.length == 3) r (clockset p r)) s)

/-! ## PARTITION (R44, R45) -/

/-- A feed's flags byte (spec/12). -/
def FeedChange.flags (v : FeedChange) (pages : Nat) : Byte :=
  bitsByte [v.replaced, v.dropped, v.feed.setup.fits pages]

/-- Outputs whose delay or pending delay a new maximum cuts (R45). -/
def cutOutputs (outs : List OutRec) (most : Nat) : Nat := (outs.filter fun o => o.cutBy most).length

/-- A PARTITION that passes its checks (R45). -/
def partitionTaken (a b d : Nat) (r : Role) (s : State) : State :=
  let fa := s.feedA.repartitioned s.clock.rateClass a
  let fb := s.feedB.repartitioned s.clock.rateClass b
  let cut := cutOutputs s.outs (maxDelay d)
  complete r (if 0 < cut ∨ fa.replaced ∨ fb.replaced ∨ fa.dropped ∨ fb.dropped then .clamped else .ok)
    (be 2 (delayCapacity d) ++ be 1 cut ++ [fa.flags a, fb.flags b])
    { s with
      pagesA := a, pagesB := b, pagesD := d, feedA := fa.feed, feedB := fb.feed
      outs := s.outs.map fun o => o.reclamped (maxDelay d) }

/-- PARTITION (R44). -/
def partition (p : List Byte) (r : Role) (s : State) : State :=
  let a := field p 0 2
  let b := field p 2 2
  let d := field p 4 2
  if s.bus.lock then complete r .locked [] s
  else if 1024 < a ∨ 1024 < b ∨ 1024 < d ∨ 1024 < a + b + d then complete r .range [] s
  else if s.feedA.inPlay || s.feedB.inPlay then complete r .busy [] s
  else partitionTaken a b d r s

def execPartition (addr : BitVec 7) (p : List Byte) (s : State) : Host.Outcome State Fault Refusal :=
  .next (takeFrame 0x41 addr p (fun r => lengthChecked (p.length == 6) r (partition p r)) s)

/-! ## IDENT (R175) -/

/-- The 8 bytes of an IDENT answer (R175). -/
def State.identBytes (s : State) (r : Role) : List Byte :=
  [0x3C, 0x61, 0x64, 0x96, 0x01] ++ be 1 (bit s.bus.strap) ++ be 1 r.code ++ be 1 s.clock.phase.code

def ident (r : Role) (s : State) : State := complete r .ok (s.identBytes r) s

def execIdent (addr : BitVec 7) (p : List Byte) (s : State) : Host.Outcome State Fault Refusal :=
  .next (takeFrame 0x01 addr p (fun r => lengthChecked p.isEmpty r (ident r)) s)

/-! ## NOTEFETCH (R183) -/

/-- A notice record (spec/12). -/
def Notice.bytes (v : Notice) : List Byte := be 1 v.kind.code ++ be 1 v.count ++ v.detail ++ be 4 v.time.toNat

/-- The notice unit with the first record of a role's queue removed (R182, R183). -/
def Notices.fetched (u : Notices) (r : Role) : Notices :=
  { u with
    queues := u.queues.set r (u.queues.get r).tail
    alertLow := u.alertLow.set r (!(u.queues.get r).tail.isEmpty) }

/-- NOTEFETCH: the queue stands in the order of the kinds, so its head is the record of highest priority (R183). -/
def notefetch (r : Role) (s : State) : State :=
  match s.notices.queues.get r with
  | [] => complete r .ok [] s
  | v :: rest => complete r .ok (v.bytes ++ be 1 rest.length) { s with notices := s.notices.fetched r }

def execNotefetch (addr : BitVec 7) (p : List Byte) (s : State) : Host.Outcome State Fault Refusal :=
  .next (takeFrame 0x02 addr p (fun r => lengthChecked p.isEmpty r (notefetch r)) s)

/-! ## PROGSTAT (R2, R46, R106, R150, R163, R178) -/

/-- The house clock unit's part, bytes 0 to 11 (R2). DESIGN CHOICE (log 52): N is the value that CLOCKSET stored, also
before the divider has loaded it. -/
def Clock.stat (c : Clock) : List Byte :=
  be 1 c.source.code ++ be 1 c.state.code ++ be 1 c.rateClass.code ++ be 1 c.n ++ be 1 c.good ++
    be 6 c.counter.toNat ++ be 1 c.phase.code

/-- Sample memory's part, bytes 12 to 22. -/
def State.memoryStat (s : State) : List Byte :=
  be 2 s.pagesA ++ be 2 s.pagesB ++ be 2 s.pagesD ++ be 2 (delayCapacity s.pagesD) ++ be 2 (maxDelay s.pagesD) ++
    [bitsByte [s.placed .a, s.placed .b]]

/-- Does an ONAIR await a block event (R106)? -/
def Selector.awaitsOnair (v : Selector) : Bool :=
  v.awaiting.any fun e => match e.order with | .onair _ => true | .stop _ _ _ => false

/-- Does a STOP await a block event (R106)? -/
def Selector.awaitsStop (v : Selector) : Bool :=
  v.awaiting.any fun e => match e.order with | .onair _ => false | .stop _ _ _ => true

/-- The selector's part, bytes 23 to 48. -/
def State.selectorStat (s : State) : List Byte :=
  be 1 s.sel.state.code ++ [sideByte s.sel.cold] ++ be 1 (bit s.sel.abandoned) ++ be 2 s.sel.n0 ++ be 2 s.sel.j ++
    be 2 s.sel.n ++ be 1 s.sel.kx ++ [sideByte s.sel.state.leader, sideByte s.standby] ++ be 1 (bit s.sel.aligned) ++
    be 5 s.sel.pos ++ be 4 s.sel.phase ++ be 1 (bit s.sel.patch) ++ be 1 s.sel.preferred.code ++
    be 1 s.sel.policyKx ++ [bitsByte [s.sel.awaitsOnair, s.sel.awaitsStop]]

/-- The cue list's part, bytes 51 to 58; the head tag of an empty list is free (log 14). -/
def State.cueStat (s : State) : List Byte :=
  be 1 s.cues.length ++ be 1 (s.cues.filter fun c => c.late).length ++
    (match s.cues with
      | c :: _ => [c.tag] ++ be 5 c.trigger
      | [] => freeBytes s.freeCount 1 ++ List.replicate 5 0xFF)

/-- The interface's part, bytes 59 to 63. -/
def Bus.stat (b : Bus) : List Byte :=
  be 1 (bit b.lock) ++ [b.slots.r0.code, b.slots.r1.code, b.slots.r2.code, b.slots.r3.code]

/-- The 64 bytes of a PROGSTAT record (spec/12). -/
def State.progStat (s : State) : List Byte :=
  s.clock.stat ++ s.memoryStat ++ s.selectorStat ++ [s.groups, s.houseMuteByte] ++ s.cueStat ++ s.bus.stat

/-- PROGSTAT (R178). -/
def progstat (r : Role) (s : State) : State := complete r .ok s.progStat (usedFree 1 s)

def execProgstat (addr : BitVec 7) (p : List Byte) (s : State) : Host.Outcome State Fault Refusal :=
  .next (takeFrame 0x03 addr p (fun r => lengthChecked p.isEmpty r (progstat r)) s)

/-! ## NOTEROUTE (R185) -/

/-- A route pair with a meaning (R185). -/
def pairOk (v : Nat × Nat) : Bool := decide (1 ≤ v.1) && decide (v.1 ≤ 16) && (targetOf v.2).isSome

/-- The routing map with pairs applied in list order (R185). -/
def applyPairs (pairs : List (Nat × Nat)) (map : List (Option Role)) : List (Option Role) :=
  pairs.foldl (fun m v => m.set (v.1 - 1) ((targetOf v.2).getD none)) map

/-- A target's code; FFh is none (spec/12). -/
def targetByte : Option Role → Byte
  | some r => BitVec.ofNat 8 r.code
  | none => 0xFF

/-- Kinds whose target differs between two maps (R185). -/
def changedKinds (before after : List (Option Role)) : Nat := ((before.zip after).filter fun v => v.1 != v.2).length

/-- NOTEROUTE (R185). -/
def noteroute (pairs : List (Nat × Nat)) (r : Role) (s : State) : State :=
  match firstIndex (fun v => !pairOk v) pairs with
  | some k => complete r .range (be 1 k) s
  | none =>
    let map := applyPairs pairs s.notices.routing
    complete r .ok (map.map targetByte ++ be 1 (changedKinds s.notices.routing map))
      { s with notices := { s.notices with routing := map } }

/-- A NOTEROUTE payload is a whole number of pairs, at most 16 (R185, R190). No pairs is a form of it (log 15). -/
def execNoteroute (addr : BitVec 7) (p : List Byte) (s : State) : Host.Outcome State Fault Refusal :=
  .next (takeFrame 0x47 addr p
    (fun r => lengthChecked (p.length % 2 == 0 && decide (p.length ≤ 32)) r (noteroute (bytePairs p) r)) s)

/-! ## CALLOCK (R176) -/

def callock (r : Role) (s : State) : State :=
  if s.bus.lock then complete r .nothing [] s
  else complete r .ok [] { s with bus := { s.bus with lock := true } }

def execCallock (addr : BitVec 7) (p : List Byte) (s : State) : Host.Outcome State Fault Refusal :=
  .next (takeFrame 0x48 addr p (fun r => lengthChecked p.isEmpty r (callock r)) s)

/-! ## FLUSH (R177) -/

/-- The selector after FLUSH: SILENT, nothing awaiting; kx, position, phase and policy are kept (R108). -/
def Selector.flushed (v : Selector) : Selector :=
  { v.rest .silent with aligned := false, awaiting := [], fresh := false }

/-- An awaiting command answered NOTHING: a STOP finds its feed IDLE (R59, R108). -/
def orderDropped (o : AwaitedOrder) (s : State) : State :=
  match o with
  | .stop r _ _ => complete r .nothing [0] s
  | .onair _ => complete .system .nothing [] s

/-- Every awaiting STOP and ONAIR answered NOTHING (R108). -/
def answerAwaiting (s : State) : State := s.sel.awaiting.foldl (fun u e => orderDropped e.order u) s

/-- What the owners of a FLUSH find (R177). -/
def State.flushFinds (s : State) : FlushFound :=
  { selState := BitVec.ofNat 8 s.sel.state.code, routes := s.scene.active.length, cues := s.cues.length }

/-- Feeds, resamplers, selector and cue list after FLUSH (R35, R65, R86, R108, R164). -/
def flushProgram (s : State) : State :=
  { s with
    feedA := s.feedA.flushed s.clock.rateClass, feedB := s.feedB.flushed s.clock.rateClass, sel := s.sel.flushed
    cues := [] }

/-- FLUSH: every owner takes it, and the command stays in execution until FLUSH_COMPLETE (R177; log 13). -/
def flush (s : State) : State :=
  let found := s.flushFinds
  let t := flushOutputs (flushScene (flushProgram (answerAwaiting s)))
  { t with bus := { t.bus with flush := some found } }

def execFlush (addr : BitVec 7) (p : List Byte) (s : State) : Host.Outcome State Fault Refusal :=
  .next (takeFrame 0x49 addr p (fun r => lengthChecked p.isEmpty r flush) s)

end Sys2Proof.Machine
end

