-- ==== Sys2Proof/Machine/Frames.lean ====
section
/-!
DEFINITION. Frames that are no command: a write frame judged at its end (R168, R169), a stalled frame (R173), and what
the part puts on the bus: the bytes of a read (R172) and the acknowledgements of a write (R165 to R168).
-/

namespace Sys2Proof.Machine

open Sys2Proof

/-! ## FRAME_FORMAT_ERROR (R168, R169) -/

/-- A whole write frame that declares its payload rightly: the command its code names; an unknown code is answered
FORMAT by the interface (R169, R170). -/
def execFrame (code : Byte) (addr : BitVec 7) (p : List Byte) (s : State) : Host.Outcome State Fault Refusal :=
  match code.toNat with
  | 0x01 => execIdent addr p s
  | 0x02 => execNotefetch addr p s
  | 0x03 => execProgstat addr p s
  | 0x10 => execFeedset addr p s
  | 0x11 => execPlay addr p s
  | 0x12 => execStop addr p s
  | 0x13 => execFeedack addr p s
  | 0x14 => execFeedstat addr p s
  | 0x20 => execScnopen addr p s
  | 0x21 => execRouteset addr p s
  | 0x22 => execRoutedrop addr p s
  | 0x23 => execScnseal addr p s
  | 0x24 => execScndiscard addr p s
  | 0x25 => execScntake addr p s
  | 0x26 => execScnstat addr p s
  | 0x30 => execCuepost addr p s
  | 0x31 => execCuecancel addr p s
  | 0x32 => execCuestat addr p s
  | 0x40 => execClockset addr p s
  | 0x41 => execPartition addr p s
  | 0x42 => execOutset addr p s
  | 0x43 => execOutstat addr p s
  | 0x44 => execGroupset addr p s
  | 0x45 => execOnair addr p s
  | 0x46 => execPolicy addr p s
  | 0x47 => execNoteroute addr p s
  | 0x48 => execCallock addr p s
  | 0x49 => execFlush addr p s
  | _ => .next (takeFrame code addr p (fun _ t => t) s)

/-- A frame that ends short or overlong: FORMAT with the echoed code, if the role's slot took the frame (R167 to
R169). -/
def badFrame (code : Byte) (addr : BitVec 7) (s : State) : State :=
  if s.resetLine then s
  else
    match roleAt s.bus.strap addr with
    | none => s
    | some r => if s.executing r then s else answer r code .format s

/-- A length byte that the part takes: 0 to 250 (R168). -/
def lengthTaken (len : Byte) : Bool := len.toNat ≤ 250

/-- Do the bytes after the length byte make the declared payload (R168)? -/
def exactPayload (len : Byte) (p : List Byte) : Bool := lengthTaken len && p.length == len.toNat

/-- A write frame that ends after the given bytes (R169). A frame that declares its payload rightly is no format error,
and is taken as the command it carries (log 32). -/
def execFrameFormatError (addr : BitVec 7) (bytes : List Byte) (s : State) : Host.Outcome State Fault Refusal :=
  match bytes with
  | [] => .next s
  | [code] => .next (badFrame code addr s)
  | code :: len :: p => if exactPayload len p then execFrame code addr p s else .next (badFrame code addr s)

/-! ## BUS_STALL (R173) -/

/-- A frame's direction in a BUSABANDON detail (spec/12). -/
def directionCode : Direction → Nat
  | .write => 0
  | .read => 1

/-- BUSABANDON: role 0 to 3, or 4 for the general call; direction; bytes carried (R173, spec/12). DESIGN CHOICE (log
65): a count above 65,535 is given as 65,535. -/
def abandonFrame (who : Nat) (dir : Direction) (bytes : List Byte) (s : State) : State :=
  raise .busabandon (be 1 who ++ be 1 (directionCode dir) ++ cap16 bytes.length)
    { s with bus := { s.bus with frame := none, stallTimer := false } }

/-- A frame that stalls (R173): one whose address the part acknowledged is abandoned; a general-call byte already
acknowledged keeps its effect (R166). -/
def busStall (addr : BitVec 7) (dir : Direction) (bytes : List Byte) (s : State) : State :=
  if s.resetLine then s
  else if addr = 0 then
    match dir with
    | .write => abandonFrame 4 dir bytes (takeCall bytes s)
    | .read => s
  else
    match roleAt s.bus.strap addr with
    | none => s
    | some r => if dir = .write ∧ s.executing r = true then s else abandonFrame r.code dir bytes s

def execBusStall (addr : BitVec 7) (dir : Direction) (bytes : List Byte) (s : State) :
    Host.Outcome State Fault Refusal := .next (busStall addr dir bytes s)

/-! ## Read frames (R172) -/

/-- The bytes of a response record (R172). -/
def Response.bytes (v : Response) : List Byte :=
  be 1 v.state.code ++ be 1 v.result.code ++ [v.echo] ++ be 1 v.data.length ++ v.data

/-- What a read frame of `k` bytes at an address returns; none where the address is not acknowledged (R165, R172). A
read changes nothing, so it is no command of the table. -/
def State.busRead (s : State) (addr : BitVec 7) (k : Nat) : Option (List Byte) :=
  if s.resetLine then none
  else (roleAt s.bus.strap addr).map fun r => ((s.bus.records.get r).bytes ++ List.replicate k 0xFF).take k

/-! ## Acknowledgements of a frame in the write direction (R165 to R168) -/

/-- Which bytes after a role's address are acknowledged: the code whatever its value, the length byte if it is taken,
and then no more bytes than it declares (R168). -/
def frameAcks : List Byte → List Bool
  | [] => []
  | [_] => [true]
  | _ :: len :: p =>
    true :: lengthTaken len :: (List.range p.length).map fun k => lengthTaken len && decide (k < len.toNat)

/-- Which bytes after the general call address are acknowledged: the first alone, if it is 70h or 71h (R166). -/
def callAcks : List Byte → List Bool
  | [] => []
  | b :: rest => (b == 0x70 || b == 0x71) :: rest.map fun _ => false

/-- What the part acknowledges of a frame in the write direction that carries the given bytes after its address, byte by
byte; none where it does not acknowledge the address: none of the part's, or a role whose command is in execution
(R165 to R168). A frame begun while the RESET line is asserted is ignored (R179). Like `busRead` it is what the part
puts on the bus, and the frame's effect is its row's. -/
def State.busAcks (s : State) (addr : BitVec 7) (bytes : List Byte) : Option (List Bool) :=
  if s.resetLine then none
  else if addr = 0 then some (callAcks bytes)
  else
    match roleAt s.bus.strap addr with
    | none => none
    | some r => if s.executing r then none else some (frameAcks bytes)

end Sys2Proof.Machine
end

