-- ==== Sys2Proof/Machine/Resets.lean ====
section
/-!
DEFINITION. Power-on and the RESET line (spec/01 R12, R13; spec/02 R35; spec/03 R47; spec/04 R64; spec/05 R86; spec/06
R107; spec/07 R132; spec/08 R151; spec/09 R164; spec/10 R179; spec/11 R187).
-/

namespace Sys2Proof.Machine

open Sys2Proof

/-- POWER_ON: every block at its power-on values, with the strap as sampled. The queue, the level on the
MUTE line, the master clock input and the count of free values used are no state of the part that power-on sets
(log 33). DESIGN CHOICE (log 69): a RESET line that is asserted is taken as negated. -/
def powerOn (strap : Bool) (s : State) : State :=
  { powerOnState strap with
    mutePin := s.mutePin, mclkStopped := s.mclkStopped, freeCount := s.freeCount, pending := s.pending }

def execPowerOn (strap : Bool) (s : State) : Host.Outcome State Fault Refusal := .next (powerOn strap s)

/-- The house clock unit under the RESET line: source, class, N, divider and clock state kept; return watch idle at
count 0; counter 0; STARTING, scrub page 0 (R13). -/
def Clock.lineReset (c : Clock) : Clock :=
  { c with watch := .idle, good := 0, counter := 0, phase := .starting, scrubPage := 0 }

/-- The selector under the RESET line: power-on values, but position and phase are kept (R107). -/
def Selector.lineReset (v : Selector) : Selector := { selectorPowerOn with pos := v.pos, phase := v.phase }

/-- RESET_ASSERT: the values of the RESET line are taken when it is asserted (R13). The words are scrubbed later (R47),
and the strap is sampled at the release (R165). DESIGN CHOICE (log 53): a block event that has fallen and whose row has
not been taken is dropped, and with it a switch of R6 that it would have made, so the kept clock state is HOLDOVER. -/
def resetAssert (s : State) : State :=
  { s with
    resetLine := true, clock := s.clock.lineReset, blockDue := false
    pagesA := 192, pagesB := 192, pagesD := 640
    feedA := feedReset s.clock.rateClass, feedB := feedReset s.clock.rateClass
    sel := s.sel.lineReset, scene := sceneReset, outs := List.replicate 64 outReset
    groups := 0, gcMute := false, muteLast := false, muteAccepted := false, slots := List.replicate 64 0
    cues := [], bus := busReset s.bus.strap, notices := noticesReset }

def execResetAssert (s : State) : Host.Outcome State Fault Refusal := .next (resetAssert s)

/-- RESET_RELEASE: the strap is sampled, and STARTING begins with the counter at 0 (R12, R165). It falls only while the
line is asserted (log 3). -/
def resetRelease (strap : Bool) (s : State) : State :=
  if s.resetLine then { s with resetLine := false, bus := { s.bus with strap := strap } } else s

def execResetRelease (strap : Bool) (s : State) : Host.Outcome State Fault Refusal := .next (resetRelease strap s)

end Sys2Proof.Machine
end

