-- ==== Sys2Proof/Machine/Dispatch.lean ====
section
/-!
DEFINITION. What each command does: one arm per constructor.
-/

namespace Sys2Proof.Machine

open Sys2Proof

def exec (i : Instr) (s : State) : Host.Outcome State Fault Refusal :=
  match i with
  | .powerOn strap => Sys2Proof.Machine.execPowerOn strap s
  | .resetAssert => Sys2Proof.Machine.execResetAssert s
  | .resetRelease strap => Sys2Proof.Machine.execResetRelease strap s
  | .dividerTerminalCount reads => Sys2Proof.Machine.execDividerTerminalCount reads s
  | .wordClockEdge edge => Sys2Proof.Machine.execWordClockEdge edge s
  | .wordClockLoss => Sys2Proof.Machine.execWordClockLoss s
  | .lossCondition => Sys2Proof.Machine.execLossCondition s
  | .returnPeriodGood => Sys2Proof.Machine.execReturnPeriodGood s
  | .blockEvent mute cuesFirst => Sys2Proof.Machine.execBlockEvent mute cuesFirst s
  | .startupEnd => Sys2Proof.Machine.execStartupEnd s
  | .wordParityFault word => Sys2Proof.Machine.execWordParityFault word s
  | .laneBlockBegin feed lane header => Sys2Proof.Machine.execLaneBlockBegin feed lane header s
  | .laneBlockArrive feed lane bytes => Sys2Proof.Machine.execLaneBlockArrive feed lane bytes s
  | .laneBlockAbandon feed lane => Sys2Proof.Machine.execLaneBlockAbandon feed lane s
  | .paceWindowExpiry feed => Sys2Proof.Machine.execPaceWindowExpiry feed s
  | .burstWindowExpiry feed => Sys2Proof.Machine.execBurstWindowExpiry feed s
  | .watchPeriodClose feed => Sys2Proof.Machine.execWatchPeriodClose feed s
  | .feedset addr payload => Sys2Proof.Machine.execFeedset addr payload s
  | .play addr payload => Sys2Proof.Machine.execPlay addr payload s
  | .stop addr payload => Sys2Proof.Machine.execStop addr payload s
  | .stopOnAirTake role => Sys2Proof.Machine.execStopOnAirTake role s
  | .feedack addr payload => Sys2Proof.Machine.execFeedack addr payload s
  | .feedstat addr payload => Sys2Proof.Machine.execFeedstat addr payload s
  | .transitionEnd => Sys2Proof.Machine.execTransitionEnd s
  | .onair addr payload => Sys2Proof.Machine.execOnair addr payload s
  | .onairTake => Sys2Proof.Machine.execOnairTake s
  | .policy addr payload => Sys2Proof.Machine.execPolicy addr payload s
  | .scnopen addr payload => Sys2Proof.Machine.execScnopen addr payload s
  | .sceneCopy => Sys2Proof.Machine.execSceneCopy s
  | .routeset addr payload => Sys2Proof.Machine.execRouteset addr payload s
  | .routedrop addr payload => Sys2Proof.Machine.execRoutedrop addr payload s
  | .scnseal addr payload => Sys2Proof.Machine.execScnseal addr payload s
  | .scndiscard addr payload => Sys2Proof.Machine.execScndiscard addr payload s
  | .scntake addr payload => Sys2Proof.Machine.execScntake addr payload s
  | .take => Sys2Proof.Machine.execTake s
  | .rampEnd input output => Sys2Proof.Machine.execRampEnd input output s
  | .scnstat addr payload => Sys2Proof.Machine.execScnstat addr payload s
  | .duckEnd output => Sys2Proof.Machine.execDuckEnd output s
  | .generalCall bytes => Sys2Proof.Machine.execGeneralCall bytes s
  | .groupset addr payload => Sys2Proof.Machine.execGroupset addr payload s
  | .outset addr payload => Sys2Proof.Machine.execOutset addr payload s
  | .outstat addr payload => Sys2Proof.Machine.execOutstat addr payload s
  | .cuepost addr payload => Sys2Proof.Machine.execCuepost addr payload s
  | .cuecancel addr payload => Sys2Proof.Machine.execCuecancel addr payload s
  | .cuestat addr payload => Sys2Proof.Machine.execCuestat addr payload s
  | .clockset addr payload => Sys2Proof.Machine.execClockset addr payload s
  | .partition addr payload => Sys2Proof.Machine.execPartition addr payload s
  | .ident addr payload => Sys2Proof.Machine.execIdent addr payload s
  | .notefetch addr payload => Sys2Proof.Machine.execNotefetch addr payload s
  | .progstat addr payload => Sys2Proof.Machine.execProgstat addr payload s
  | .noteroute addr payload => Sys2Proof.Machine.execNoteroute addr payload s
  | .callock addr payload => Sys2Proof.Machine.execCallock addr payload s
  | .flush addr payload => Sys2Proof.Machine.execFlush addr payload s
  | .flushComplete => Sys2Proof.Machine.execFlushComplete s
  | .frameFormatError addr bytes => Sys2Proof.Machine.execFrameFormatError addr bytes s
  | .busStall addr dir bytes => Sys2Proof.Machine.execBusStall addr dir bytes s

end Sys2Proof.Machine
end

