-- ==== Sys2Proof/Safety.lean ====
section
/-!
DEFINITION. The terms in which the statements speak: when the part hears a frame, a command's frame, what an answer
leaves, and the properties of a state that every step keeps.
-/

namespace Sys2Proof

/-- The code, address and payload of the write frame that a bus command of the table is (spec/12). -/
def Instr.frame : Instr → Option (Byte × BitVec 7 × List Byte)
  | .ident a p => some (0x01, a, p)
  | .notefetch a p => some (0x02, a, p)
  | .progstat a p => some (0x03, a, p)
  | .feedset a p => some (0x10, a, p)
  | .play a p => some (0x11, a, p)
  | .stop a p => some (0x12, a, p)
  | .feedack a p => some (0x13, a, p)
  | .feedstat a p => some (0x14, a, p)
  | .scnopen a p => some (0x20, a, p)
  | .routeset a p => some (0x21, a, p)
  | .routedrop a p => some (0x22, a, p)
  | .scnseal a p => some (0x23, a, p)
  | .scndiscard a p => some (0x24, a, p)
  | .scntake a p => some (0x25, a, p)
  | .scnstat a p => some (0x26, a, p)
  | .cuepost a p => some (0x30, a, p)
  | .cuecancel a p => some (0x31, a, p)
  | .cuestat a p => some (0x32, a, p)
  | .clockset a p => some (0x40, a, p)
  | .partition a p => some (0x41, a, p)
  | .outset a p => some (0x42, a, p)
  | .outstat a p => some (0x43, a, p)
  | .groupset a p => some (0x44, a, p)
  | .onair a p => some (0x45, a, p)
  | .policy a p => some (0x46, a, p)
  | .noteroute a p => some (0x47, a, p)
  | .callock a p => some (0x48, a, p)
  | .flush a p => some (0x49, a, p)
  | .powerOn _ | .resetAssert | .resetRelease _ | .dividerTerminalCount _ | .wordClockEdge _ | .wordClockLoss
  | .lossCondition | .returnPeriodGood | .blockEvent _ _ | .startupEnd | .wordParityFault _ | .laneBlockBegin _ _ _
  | .laneBlockArrive _ _ _ | .laneBlockAbandon _ _ | .paceWindowExpiry _ | .burstWindowExpiry _
  | .watchPeriodClose _ | .stopOnAirTake _ | .transitionEnd | .onairTake | .sceneCopy | .take | .rampEnd _ _
  | .duckEnd _ | .generalCall _ | .flushComplete | .frameFormatError _ _ | .busStall _ _ _ => none

end Sys2Proof

namespace Sys2Proof.Machine

open Sys2Proof

/-! ## Frames and answers -/

/-- The part takes a write frame to an address as a frame of role `r`: the RESET line is negated, the address is that
role's under the sampled strap, and the role has no command in execution (R165, R167, R179). -/
abbrev State.Hears (s : State) (addr : BitVec 7) (r : Role) : Prop :=
  s.resetLine = false ∧ roleAt s.bus.strap addr = some r ∧ s.executing r = false

/-- The part hears the role, and the start-up phase is RUNNING (R12, R170). -/
abbrev State.Serves (s : State) (addr : BitVec 7) (r : Role) : Prop :=
  s.Hears addr r ∧ s.clock.phase = .running

/-- The state with a role's command answered: record DONE with result, echoed code and data, slot FREE (R171). -/
def State.answered (s : State) (r : Role) (code : Byte) (res : ResultCode) (data : List Byte) : State :=
  { s with bus := s.bus.answered r code res data }

/-- A route entry as ROUTESET carries it (spec/12, Entries and records). -/
def RouteEntry.bytes (e : RouteEntry) : List Byte := be 1 e.input ++ be 1 e.output ++ beInt 3 e.target ++ be 1 e.k

/-- Fields that a route entry's six bytes can hold (spec/12). -/
abbrev RouteEntry.Fits (e : RouteEntry) : Prop :=
  e.input < 256 ∧ e.output < 256 ∧ -8388608 ≤ e.target ∧ e.target ≤ 8388607 ∧ e.k < 256

/-- Pairs of bytes as ROUTEDROP and NOTEROUTE carry them (spec/12). -/
def pairBytes (v : Nat × Nat) : List Byte := be 1 v.1 ++ be 1 v.2

/-! ## Values that a reset leaves -/

/-- A feed unit and its resampler after power-on or the RESET line, in a house of a class (R35, R64, R86). -/
abbrev Feed.Cleared (f : Feed) (house : Rate) : Prop :=
  (f.setup = { mode := .streaming, rate := house, speed := .one, n := 16, lanes := 1, dExp := 11, wExp := 3 } ∧
    f.ring = List.replicate 64 { stamp := none, state := .empty, got := { l0 := false, l1 := false } } ∧
    f.h = 0 ∧ f.s0 = 0 ∧ f.last0 = none ∧ f.last1 = none ∧ f.sourceEnd = none ∧ f.rx0 = .hunting ∧ f.rx1 = .hunting) ∧
  (f.pace.line = false ∧ f.pace.isOpen = false ∧ f.watch.armed = false ∧ f.watch.absent = false ∧ f.watch.bad = 0 ∧
    f.watch.good = 0 ∧ f.watch.marks = { l0 := false, l1 := false } ∧ f.watch.paceBad = false) ∧
  (f.st = .idle ∧ f.role = .none ∧ f.startPos = 0 ∧ f.count = 0 ∧ f.ending = none ∧ f.completion = none ∧
    f.pendingPlay = none) ∧
  f.rs.rNom = 268435456 ∧ f.rs.r = 268435456 ∧ f.rs.acc = 0 ∧ f.rs.i = 0 ∧ f.rs.phi = 0 ∧ f.rs.servoErr = 0 ∧
    f.rs.clamped = false ∧ f.rs.underrun = false

/-- The selector after power-on or the RESET line, but for the program position and phase (R107). -/
abbrev Selector.Cleared (v : Selector) : Prop :=
  v.state = .silent ∧ v.cold = none ∧ v.abandoned = false ∧ v.n = 0 ∧ v.n0 = 0 ∧ v.j = 0 ∧ v.kx = 8 ∧
    v.aligned = false ∧ v.patch = true ∧ v.preferred = .a ∧ v.policyKx = 8 ∧ v.awaiting = []

/-- The scene store after power-on, the RESET line or FLUSH (R131, R132). -/
abbrev Scene.Cleared (v : Scene) : Prop :=
  v.active = [] ∧ v.pendingBank = [] ∧ v.state = .free ∧ v.copy = .none ∧ v.take = .none ∧ v.cut = 0

/-- The output stage after power-on or the RESET line (R47, R151). -/
abbrev State.OutputsCleared (s : State) : Prop :=
  s.outs.length = 64 ∧
    (∀ o ∈ s.outs, o.trim = 4194304 ∧ o.delay = 0 ∧ o.pendingDelay = none ∧ o.ownMute = false ∧ o.mask = 0 ∧
      o.m = 4194304 ∧ o.clip = false ∧ o.heldSum = 0 ∧ o.heldDelayed = 0 ∧ o.writeIdx = 0 ∧ o.valid = 0) ∧
    s.groups = 0 ∧ s.gcMute = false ∧ s.muteLast = false ∧ s.muteAccepted = false

/-- The control bus interface and the notice unit after power-on or the RESET line, but for the strap (R179, R187). -/
abbrev State.FrontCleared (s : State) : Prop :=
  (∀ r, s.bus.slots.get r = .free ∧ s.bus.records.get r = { state := .empty, result := .ok, echo := 0, data := [] } ∧
    s.notices.queues.get r = [] ∧ s.notices.alertLow.get r = false) ∧
    s.bus.frame = none ∧ s.bus.stallTimer = false ∧ s.bus.lock = false ∧
    s.notices.routing = List.replicate 16 (some Role.system)

/-- Every block but the house clock unit after power-on or the RESET line, in a house of a class. -/
abbrev State.BlocksCleared (s : State) (house : Rate) : Prop :=
  s.feedA.Cleared house ∧ s.feedB.Cleared house ∧ s.sel.Cleared ∧ s.scene.Cleared ∧ s.OutputsCleared ∧ s.cues = [] ∧
    s.FrontCleared ∧ s.pagesA = 192 ∧ s.pagesB = 192 ∧ s.pagesD = 640 ∧ s.slots = List.replicate 64 0

/-! ## Frames that the interface judges -/

/-- Codes that a role may not issue at all (R170, step 2). -/
abbrev DeniedTo (c : Nat) (r : Role) : Prop :=
  (0x10 ≤ c ∧ c ≤ 0x13 ∧ r = .render) ∨ (0x20 ≤ c ∧ c ≤ 0x25 ∧ r ≠ .render) ∨
    (0x30 ≤ c ∧ c ≤ 0x31 ∧ (r = .feedA ∨ r = .feedB)) ∨ (0x40 ≤ c ∧ c ≤ 0x49 ∧ c ≠ 0x43 ∧ r ≠ .system)

/-- The table of payload lengths (spec/12, Command payloads and answers). -/
def goodLength (c len : Nat) : Bool :=
  match c with
  | 0x10 => len == 8
  | 0x11 => len == 10
  | 0x12 => len == 2
  | 0x13 | 0x14 => len == 1
  | 0x20 | 0x23 => len == 1
  | 0x21 => len % 6 == 0 && decide (len / 6 ≤ 40)
  | 0x22 => len % 2 == 0 && decide (len / 2 ≤ 125)
  | 0x26 => len == 0 || len == 2
  | 0x30 => len == 8
  | 0x31 => len == 1
  | 0x40 => len == 3
  | 0x41 => len == 6
  | 0x42 => len == 8
  | 0x43 | 0x44 => len == 2
  | 0x45 => len == 1
  | 0x46 => len == 3
  | 0x47 => len % 2 == 0 && decide (len / 2 ≤ 16)
  | _ => len == 0

/-! ## Properties that every step keeps -/

/-- The words of sample memory are in their one canonical form. -/
abbrev State.MemOk (s : State) : Prop := Memory.wf s.mem = true

/-- Every mute gain is a multiple of 65,536 between 0 and unity (R139). -/
abbrev State.GainsOk (s : State) : Prop := ∀ o ∈ s.outs, o.m % Config.muteStep = 0 ∧ o.m ≤ Config.unity

/-- At most 32 cues, in trigger order (R155). -/
abbrev State.CuesOk (s : State) : Prop :=
  s.cues.length ≤ Config.cueCapacity ∧ s.cues.Pairwise fun c d => c.trigger ≤ d.trigger

/-- A notice queue: kinds strictly rising, so at most one record of a kind, with repeat counts from 1 to 255
(R181). -/
abbrev QueueOk (q : List Notice) : Prop :=
  (q.Pairwise fun v w => v.kind.code < w.kind.code) ∧ ∀ v ∈ q, 1 ≤ v.count ∧ v.count ≤ 255

/-- Every queue is well formed, and each alert line is low exactly while its queue is not empty (R181, R182). -/
abbrev State.NoticesOk (s : State) : Prop :=
  (QueueOk s.notices.queues.r0 ∧ QueueOk s.notices.queues.r1 ∧ QueueOk s.notices.queues.r2 ∧
      QueueOk s.notices.queues.r3) ∧
    s.notices.alertLow.r0 = !s.notices.queues.r0.isEmpty ∧ s.notices.alertLow.r1 = !s.notices.queues.r1.isEmpty ∧
    s.notices.alertLow.r2 = !s.notices.queues.r2.isEmpty ∧ s.notices.alertLow.r3 = !s.notices.queues.r3.isEmpty

/-- The four fields of a route entry within their ranges (R109). -/
abbrev RouteFieldsOk (input output : Nat) (target : Int) (k : Nat) : Prop :=
  input ≤ 95 ∧ output ≤ 63 ∧ -8388608 ≤ target ∧ target ≤ 8388607 ∧ k ≤ 11

/-- The pending bank holds entries within their ranges, in strict key order and within 3C/4; it is empty in FREE, and
a sealed bank's release exponent is at most 11 (R109 to R111). -/
abbrev State.PendingOk (s : State) : Prop :=
  (s.scene.pendingBank.Pairwise fun x y => x.key < y.key) ∧
    s.scene.pendingBank.length ≤ pendingLimit s.clock.rateClass ∧
    (s.scene.state = .free → s.scene.pendingBank = []) ∧
    (∀ e ∈ s.scene.pendingBank, RouteFieldsOk e.input e.output e.target e.k) ∧
    ∀ kr, s.scene.state = .sealed kr → kr ≤ 11

/-- The active bank holds routes within their ranges, in strict key order and within C, and its routes that are not
releasing are within 3C/4 (R109, R110, R113). -/
abbrev State.ActiveOk (s : State) : Prop :=
  (s.scene.active.Pairwise fun x y => x.key < y.key) ∧
    s.scene.active.length ≤ routeCapacity s.clock.rateClass ∧
    (s.scene.active.filter fun e => !e.releasing).length ≤ pendingLimit s.clock.rateClass ∧
    ∀ e ∈ s.scene.active, RouteFieldsOk e.input e.output e.target e.k

/-- The banks (R110). -/
abbrev State.BanksOk (s : State) : Prop := s.PendingOk ∧ s.ActiveOk

/-- A route at rest stands at its target, and a releasing route's target is 0 (R109). -/
abbrev State.RoutesOk (s : State) : Prop :=
  ∀ e ∈ s.scene.active, (e.remaining = 0 → e.gain = e.target) ∧ (e.releasing = true → e.target = 0)

/-- A feed's records agree with its state: a completion record in COMPLETE alone, an ending reason in ENDING alone, a
pending PLAY in COMPLETE alone, a program role in RUNNING and ENDING alone, in SEEKING and PRIMED the read position held
at S with phase 0, and a read position that holds stands at the last frame (R48, R50, R51, R54, R57, R69). -/
abbrev Feed.RecordsOk (f : Feed) : Prop :=
  (f.completion.isSome = true ↔ f.st = .complete) ∧ (f.ending.isSome = true ↔ f.st = .ending) ∧
    (f.pendingPlay.isSome = true → f.st = .complete) ∧ (f.isRead = false → f.role = .none) ∧
    (f.st = .seeking ∨ f.st = .primed → f.rs.i = f.startPos ∧ f.rs.phi = 0) ∧
    (f.rs.held = true → f.rs.i = 2 ^ 40 - 1 ∧ f.rs.phi = 0)

/-- The feeds' states and roles are those that the selector's state names: its leader leads, an outgoing feed is read,
and every other feed that is read is the standby (R87). -/
abbrev State.RolesOk (s : State) : Prop :=
  match s.sel.state with
  | .silent => ∀ x, (s.feed x).isRead = true → (s.feed x).isStandby = true ∧ (s.feed x.other).isStandby = false
  | .onair l | .rise l =>
    (s.feed l).st = .running ∧ (s.feed l).role = .leader ∧
      ((s.feed l.other).isRead = true → (s.feed l.other).isStandby = true)
  | .fade l =>
    (s.feed l).st = .ending ∧ (s.feed l).role = .leader ∧
      ((s.feed l.other).isRead = true → (s.feed l.other).isStandby = true)
  | .xfade x =>
    (s.feed x).role = .outgoing ∧ (s.feed x).isRead = true ∧ (s.feed x.other).role = .leader ∧
      (s.feed x.other).st = if s.sel.abandoned then .ending else .running

/-- The selector's flags and counts: aligned with a standby alone, a cold flag on a fade alone and naming the standby,
an abandon mark on a crossfade alone, no count beyond the transition's length, and exponents from 5 to 10 (R87, R89,
R91, R98, R104). -/
abbrev Selector.CountsOk (s : State) : Prop :=
  (s.sel.aligned = true → ∃ x, (s.feed x).isStandby = true) ∧
    (∀ y, s.sel.cold = some y → s.sel.state = .fade y.other ∧ (s.feed y).isStandby = true) ∧
    (s.sel.abandoned = true → ∃ x, s.sel.state = .xfade x) ∧
    s.sel.n ≤ 2 ^ s.sel.kx ∧ s.sel.n0 + s.sel.j ≤ 2 ^ s.sel.kx ∧ 5 ≤ s.sel.kx ∧ s.sel.kx ≤ 10 ∧
    5 ≤ s.sel.policyKx ∧ s.sel.policyKx ≤ 10

/-- A running standby, and the running outgoing feed of a crossfade that has begun, stand at the program position and
phase (R70). -/
abbrev State.SlavedOk (s : State) : Prop :=
  (∀ x, (s.feed x).isStandby = true → (s.feed x).rs.i = s.sel.pos ∧ (s.feed x).rs.phi = s.sel.phase) ∧
    ∀ x, s.sel.state = .xfade x → 0 < s.sel.n + s.sel.n0 + s.sel.j → (s.feed x).st = .running →
      (s.feed x).rs.i = s.sel.pos ∧ (s.feed x).rs.phi = s.sel.phase

/-- What holds between the feeds and the selector. -/
abbrev State.ProgramOk (s : State) : Prop :=
  (∀ x, (s.feed x).RecordsOk) ∧ s.RolesOk ∧ Selector.CountsOk s ∧ s.SlavedOk

/-- A feed's ratio lies within its clamp range, and is the nominal ratio while it is paced (R74). -/
abbrev Feed.RatioOk (f : Feed) : Prop :=
  f.rs.rNom - f.rs.rNom / 512 ≤ f.rs.r ∧ f.rs.r ≤ f.rs.rNom + f.rs.rNom / 512 ∧
    (f.setup.mode ≠ .streaming → f.rs.r = f.rs.rNom)

/-- Both feeds' ratios are in range, and wherever a lead can be handed over the two nominal ratios are equal: on air or
in a rise that has begun with an aligned standby, and in a crossfade that has not begun (R71, R74, R91). -/
abbrev State.RatiosOk (s : State) : Prop :=
  (∀ x, (s.feed x).RatioOk) ∧
    match s.sel.state with
    | .onair _ => s.sel.aligned = true → s.feedA.rs.rNom = s.feedB.rs.rNom
    | .rise _ => s.sel.aligned = true → 0 < s.sel.n → s.feedA.rs.rNom = s.feedB.rs.rNom
    | .xfade _ => s.sel.formed = 0 → s.feedA.rs.rNom = s.feedB.rs.rNom
    | .fade _ | .silent => True

/-- A feed's setup is within its bounds, its ring has D/32 slots, every stamp it holds is in its own slot and below the
head, and the head is a multiple of 32 (R18, R23, R33). -/
abbrev Feed.RingOk (f : Feed) : Prop :=
  f.setup.boundsOk = true ∧ f.ring.length = 2 ^ f.setup.dExp / 32 ∧ f.h % 32 = 0 ∧ f.h ≤ 2 ^ 40 ∧
    ∀ k v t, f.ring[k]? = some v → v.stamp = some t →
      t % 32 = 0 ∧ t < f.h ∧ t / 32 % (2 ^ f.setup.dExp / 32) = k

/-- Both feeds' rings, with every PLAY's position and count within five and four bytes (R49). -/
abbrev State.RingsOk (s : State) : Prop :=
  ∀ x, (s.feed x).RingOk ∧ (s.feed x).startPos < 2 ^ 40 ∧ ∀ v, (s.feed x).pendingPlay = some v → v.pos < 2 ^ 40

/-- The house clock unit: the clock state agrees with the source setting, N and the loaded N are 31 to 255, the divider
count and the loss measure are within their ranges, the return watch counts in HOLDOVER alone, and RUNNING follows the
whole scrub (R1, R2, R4, R5, R11, R12). -/
abbrev Clock.Ok (c : Clock) : Prop :=
  (c.source = .internal ↔ c.state = .internal) ∧ 31 ≤ c.n ∧ c.n ≤ 255 ∧ 31 ≤ c.loadedN ∧ c.loadedN ≤ 255 ∧
    c.divCount < 4 * (c.loadedN + 1) ∧ c.lossMeasure < 2048 ∧ c.scrubPage ≤ 1024 ∧
    (c.phase = .running → c.scrubPage = 1024) ∧ (c.state ≠ .holdover → c.watch = .idle) ∧
    match c.watch with
    | .idle => c.good = 0
    | .counting _ => c.good ≤ 1
    | .waiting => c.good = 2

/-! ## The ring reads of a house sample -/

/-- A feed at base 2 (R66). -/
abbrev State.BaseTwo (s : State) (x : Side) : Prop := (s.feed x).setup.rate = .k96 ∧ s.clock.rateClass = .k48

/-- A ring read that is made at a house sample: of a feed that is read, one for each point of each of its channels, and
at base 2 five (R81, R83, R84). -/
abbrev State.Reads (s : State) (r : RingRead) : Prop :=
  (s.feed r.feed).isRead = true ∧ r.channel < (s.feed r.feed).setup.n ∧ r.tap < 20 ∧
    (s.BaseTwo r.feed ∨ r.tap % 5 = 0)

/-- The frame that a ring read of a house sample is of: at base 1/2 and 1 the four from i - 1, at base 2 those of the
four half-band sums (R81, R83). -/
def State.frameOf (s : State) (r : RingRead) : Int :=
  (s.feed r.feed).rs.i - 1 + (r.tap / 5 : Nat) +
    if s.BaseTwo r.feed then [-3, -1, 0, 1, 3].getD (r.tap % 5) 0 else 0

/-! ## Who may command a feed -/

/-- The roles that may issue FEEDSET, PLAY, STOP and FEEDACK for a feed (R170). -/
abbrev MayCommand (r : Role) (x : Side) : Prop := r = .system ∨ (r = .feedA ∧ x = .a) ∨ (r = .feedB ∧ x = .b)

end Sys2Proof.Machine
end

