-- ==== Sys2Proof/Certificates/Slice0/Obligations.lean ====
section
/-!
DEFINITION. The statements for the provers, one definition each. In every statement about a bus command the premise
`s.Serves addr r` says when the part takes the frame (RESET line negated, the address that of role `r`, no command of
that role in execution, start-up phase RUNNING), `caughtUp s` is the state once a transition whose last house sample
has been formed is over (log 5), and `answered` fills the role's response record and frees its slot.
-/

open Sys2Proof Sys2Proof.Machine

/-! ## The step -/

/-- One step with a command in front is that command's effect with the queue's rest. That no other command falls within
it, between two notices that it raises for one, is the model's choice (logs 40 and 72). -/
def Obligations.StepRunsFront : Prop :=
  ∀ (c : Instr) (rest : List Instr) (s : State), s.pending = c :: rest → step s = exec c { s with pending := rest }

/-- No command's own effect touches the queue. With an empty queue and nothing due, one period of the master clock
passes (the model's choice, log 1): the divider counts it, or reaches its terminal count and begins again from 0 under
the present N (log 19), which is a house sample event but in FOLLOWING (R1). In FOLLOWING and HOLDOVER the loss measure
counts the period too; the 2048th with no edge is a loss in FOLLOWING and a loss condition in HOLDOVER, and the measure
begins anew (R4, R5). The divider going first is R4's order for FOLLOWING, and the model's choice for HOLDOVER (log
51). While the master clock is stopped no period passes, so the divider and the loss measure do not count and no house
sample event falls (R1); the step takes only what fell due before (`settle`, log 4; ClockEvents says what it is). That
no read of an idle step's house sample meets a passing fault, and that none is taken late, are the model's choices
(logs 9 and 10). -/
def Obligations.QueueAndIdle : Prop :=
  (∀ (c : Instr) (s t : State), exec c s = .next t → t.pending = s.pending) ∧
  (∀ s : State, s.pending = [] → s.mclkStopped = true → step s = .next (settle s)) ∧
  (∀ s : State, s.pending = [] → s.mclkStopped = false → settle s = s → s.clock.state = .internal →
     (s.clock.divCount + 1 < 4 * (s.clock.loadedN + 1) →
       step s = .next { s with clock := { s.clock with divCount := s.clock.divCount + 1 } }) ∧
     (4 * (s.clock.loadedN + 1) ≤ s.clock.divCount + 1 →
       step s = .next (houseSample { passing := [], late := [] }
         { s with clock := { s.clock with divCount := 0, loadedN := s.clock.n } }))) ∧
  (∀ (s : State) (c : Clock), s.pending = [] → s.mclkStopped = false → settle s = s → s.clock.state = .following →
     c = (if s.clock.divCount + 1 < 4 * (s.clock.loadedN + 1) then { s.clock with divCount := s.clock.divCount + 1 }
       else { s.clock with divCount := 0, loadedN := s.clock.n }) →
     (s.clock.lossMeasure + 1 < 2048 →
       step s = .next { s with clock := { c with lossMeasure := s.clock.lossMeasure + 1 } }) ∧
     (2048 ≤ s.clock.lossMeasure + 1 → step s = exec .wordClockLoss { s with clock := { c with lossMeasure := 0 } })) ∧
  (∀ s u : State, s.pending = [] → s.mclkStopped = false → settle s = s → s.clock.state = .holdover →
     u = (if s.clock.divCount + 1 < 4 * (s.clock.loadedN + 1) then
         { s with clock := { s.clock with divCount := s.clock.divCount + 1 } }
       else houseSample { passing := [], late := [] }
         { s with clock := { s.clock with divCount := 0, loadedN := s.clock.n } }) →
     (s.clock.lossMeasure + 1 < 2048 →
       step s = .next { u with clock := { u.clock with lossMeasure := s.clock.lossMeasure + 1 } }) ∧
     (2048 ≤ s.clock.lossMeasure + 1 →
       step s = exec .lossCondition { u with clock := { u.clock with lossMeasure := 0 } }))

/-! ## Resets -/

/-- POWER_ON: the values that every block takes (R13, R35, R47, R64, R86, R107, R132, R151, R164, R179, R187), with the
strap sampled (R165). That the RESET line is negated is the model's choice (logs 12 and 69). -/
def Obligations.PowerOn : Prop :=
  ∀ (s : State) (strap : Bool), ∃ t, exec (.powerOn strap) s = .next t ∧
    t.BlocksCleared .k48 ∧ t.sel.pos = 0 ∧ t.sel.phase = 0 ∧ t.bus.strap = strap ∧ t.resetLine = false ∧
    t.clock.source = .internal ∧ t.clock.rateClass = .k48 ∧ t.clock.n = 127 ∧ t.clock.divCount = 0 ∧
    t.clock.state = .internal ∧ t.clock.watch = .idle ∧ t.clock.good = 0 ∧ t.clock.counter = 0 ∧
    t.clock.phase = .starting ∧ t.clock.scrubPage = 0

/-- The RESET line: the values taken at its assertion, what no command changes while it is asserted, the terminal counts
and edges of word clock in that still come, in every clock state, with the house samples that they make, and its release
(R13, R35, R47, R64, R86, R107, R132, R151, R164, R165, R179, R187). While the master clock is stopped neither makes a
house sample (R1). That a restart of the divider by an edge loads N as well is the model's choice (log 19), and so is
what an edge still sets while the master clock is stopped (log 61). -/
def Obligations.ResetLine : Prop :=
  (∀ s : State, ∃ t, exec .resetAssert s = .next t ∧ t.resetLine = true ∧ t.BlocksCleared s.clock.rateClass ∧
    t.sel.pos = s.sel.pos ∧ t.sel.phase = s.sel.phase ∧ t.mem = s.mem ∧
    t.clock = { s.clock with watch := .idle, good := 0, counter := 0, phase := .starting, scrubPage := 0 }) ∧
  (∀ (s : State) (reads : SampleReads), s.resetLine = true →
    (s.mclkStopped = true → exec (.dividerTerminalCount reads) s = .next s) ∧
    (s.mclkStopped = false → s.clock.state ≠ .following →
      exec (.dividerTerminalCount reads) s = .next
        { s with
          clock := { s.clock with divCount := 0, loadedN := s.clock.n, wclkOut := s.clock.wclkOut + 1 }
          slots := List.replicate 64 0 }) ∧
    (s.mclkStopped = false → s.clock.state = .following →
      exec (.dividerTerminalCount reads) s = .next
        { s with clock := { s.clock with divCount := 0, loadedN := s.clock.n } })) ∧
  (∀ (s : State) (reads : SampleReads) (stopped : Bool), s.resetLine = true →
    (s.clock.state = .internal → exec (.wordClockEdge ⟨reads, stopped⟩) s = .next { s with mclkStopped := stopped }) ∧
    (s.clock.state = .following →
      exec (.wordClockEdge ⟨reads, stopped⟩) s = .next
        { s with
          mclkStopped := stopped
          clock := { s.clock with
            divCount := 0, loadedN := s.clock.n, lossMeasure := 0
            wclkOut := if stopped then s.clock.wclkOut else s.clock.wclkOut + 1 }
          slots := if stopped then s.slots else List.replicate 64 0 }) ∧
    (s.clock.state = .holdover →
      exec (.wordClockEdge ⟨reads, stopped⟩) s = .next
        { s with mclkStopped := stopped, clock := { s.clock with lossMeasure := 0 } })) ∧
  (∀ (s : State) (c : Instr), s.resetLine = true →
    match c with
    | .powerOn _ | .resetAssert | .resetRelease _ | .dividerTerminalCount _ | .wordClockEdge _ | .wordClockLoss
    | .lossCondition | .wordParityFault _ => True
    | _ => exec c s = .next s) ∧
  (∀ (s : State) (strap : Bool), s.resetLine = true →
    exec (.resetRelease strap) s = .next { s with resetLine := false, bus := { s.bus with strap := strap } })

/-! ## The interface -/

/-- A write frame to an address that is none of the part's, to a role whose command is in execution, or while the
RESET line is asserted, changes nothing (R165, R167, R179). The interface's own refusals, in their order, each leaving
every owner as it was (R170, steps 2 to 4). A command that reaches its owner with a payload length that the table does
not give is answered FORMAT, and nothing else comes of it (R190). -/
def Obligations.FrameJudged : Prop :=
  ((∀ (strap : Bool) (addr : BitVec 7) (r : Role),
     roleAt strap addr = some r ↔ addr.toNat = (if strap then 0x38 else 0x34) + r.code) ∧
   ∀ (s : State) (i : Instr) (code : Byte) (addr : BitVec 7) (p : List Byte), i.frame = some (code, addr, p) →
     (s.resetLine = true ∨ roleAt s.bus.strap addr = none ∨
       ∃ r c, roleAt s.bus.strap addr = some r ∧ s.bus.slots.get r = .executing c) →
     exec i s = .next s) ∧
  (∀ (s : State) (i : Instr) (code : Byte) (addr : BitVec 7) (p : List Byte) (r : Role),
     i.frame = some (code, addr, p) → s.Hears addr r → p.length ≤ 250 →
     (DeniedTo code.toNat r → exec i s = .next (s.answered r code .denied [])) ∧
     (¬ DeniedTo code.toNat r → 0x10 ≤ code.toNat → code.toNat ≤ 0x14 → p = [] →
       exec i s = .next (s.answered r code .format [])) ∧
     (∀ b rest, ¬ DeniedTo code.toNat r → 0x10 ≤ code.toNat → code.toNat ≤ 0x14 → p = b :: rest →
       (1 < b.toNat → exec i s = .next (s.answered r code .range [])) ∧
       (code.toNat ≠ 0x14 → (r = .feedA ∧ b = 1 ∨ r = .feedB ∧ b = 0) →
         exec i s = .next (s.answered r code .denied []))) ∧
     (¬ DeniedTo code.toNat r → 0x20 ≤ code.toNat → s.clock.phase = .starting →
       exec i s = .next (s.answered r code .busy [])) ∧
     (∀ b rest, ¬ DeniedTo code.toNat r → 0x10 ≤ code.toNat → code.toNat ≤ 0x14 → p = b :: rest → b.toNat ≤ 1 →
       (code.toNat ≠ 0x14 → ¬ (r = .feedA ∧ b = 1 ∨ r = .feedB ∧ b = 0)) → s.clock.phase = .starting →
       exec i s = .next (s.answered r code .busy []))) ∧
  (∀ (s : State) (i : Instr) (code : Byte) (addr : BitVec 7) (p : List Byte) (r : Role),
     i.frame = some (code, addr, p) → s.Hears addr r → judge code.toNat r p s.starting = none →
     goodLength code.toNat p.length = false →
     exec i s = .next ((caughtUp s).answered r code .format []))

/-- What the part acknowledges of a frame in the write direction: of a role's frame the address, unless the role's
command is in execution, the code whatever its value, a length byte up to 250, and then as many bytes as it declares; of
a general call the address, and the first byte if it is 70h or 71h; of any other frame, and under the RESET line,
nothing (R165 to R168, R179). FRAME_FORMAT_ERROR: how a write frame that the part hears ends (R168, R169), an unknown
code (R170, step 1), and a frame in order, which is its command (the model's choice, log 32). -/
def Obligations.FrameFormat : Prop :=
  (∀ (s : State) (addr : BitVec 7) (bytes : List Byte),
    (s.resetLine = true ∨ (addr ≠ 0 ∧ roleAt s.bus.strap addr = none) ∨
      (∃ r, roleAt s.bus.strap addr = some r ∧ s.executing r = true) → s.busAcks addr bytes = none) ∧
    (s.resetLine = false → addr = 0 → ∃ acks, s.busAcks addr bytes = some acks ∧ acks.length = bytes.length ∧
      ∀ (k : Nat) (b : Byte), bytes[k]? = some b → acks[k]? = some (decide (k = 0 ∧ (b = 0x70 ∨ b = 0x71)))) ∧
    (∀ r, s.Hears addr r → ∃ acks, s.busAcks addr bytes = some acks ∧ acks.length = bytes.length ∧
      ∀ (code len : Byte) (p : List Byte),
        (bytes = [code] → acks = [true]) ∧
        (bytes = code :: len :: p → acks[0]? = some true ∧ acks[1]? = some (decide (len.toNat ≤ 250)) ∧
          ∀ k, k < p.length → acks[k + 2]? = some (decide (len.toNat ≤ 250 ∧ k < len.toNat))))) ∧
  ∀ (s : State) (addr : BitVec 7) (r : Role), s.Hears addr r →
    exec (.frameFormatError addr []) s = .next s ∧
    (∀ code, exec (.frameFormatError addr [code]) s = .next (s.answered r code .format [])) ∧
    (∀ (code len : Byte) (p : List Byte), (250 < len.toNat ∨ p.length ≠ len.toNat) →
      exec (.frameFormatError addr (code :: len :: p)) s = .next (s.answered r code .format [])) ∧
    (∀ (code len : Byte) (p : List Byte), knownCode code.toNat = false → p.length = len.toNat → len.toNat ≤ 250 →
      exec (.frameFormatError addr (code :: len :: p)) s = .next (s.answered r code .format [])) ∧
    (∀ (i : Instr) (code len : Byte) (p : List Byte), i.frame = some (code, addr, p) → p.length = len.toNat →
      len.toNat ≤ 250 → exec (.frameFormatError addr (code :: len :: p)) s = exec i s)

/-- BUS_STALL: a frame to the part is abandoned and BUSABANDON raised; one to another address, or not acknowledged,
changes nothing; a general-call byte taken before the stall keeps its effect (R166, R173). That BUSABANDON gives 65,535
for a frame of more bytes is the model's choice (log 65). -/
def Obligations.BusStall : Prop :=
  ∀ (s : State) (addr : BitVec 7) (dir : Direction) (bytes : List Byte), s.resetLine = false →
    s.bus.frame = none → s.bus.stallTimer = false →
    (∀ r, roleAt s.bus.strap addr = some r → (dir = .read ∨ s.executing r = false) →
      exec (.busStall addr dir bytes) s = .next
        (raise .busabandon
          ([BitVec.ofNat 8 r.code, if dir = .read then 1 else 0] ++ be 2 (min bytes.length 65535)) s)) ∧
    (∀ r, roleAt s.bus.strap addr = some r → dir = .write → s.executing r = true →
      exec (.busStall addr dir bytes) s = .next s) ∧
    (addr ≠ 0 → roleAt s.bus.strap addr = none → exec (.busStall addr dir bytes) s = .next s) ∧
    (addr = 0 → dir = .read → exec (.busStall addr dir bytes) s = .next s) ∧
    (addr = 0 → dir = .write →
      ∃ t, exec (.generalCall bytes) s = .next t ∧
        exec (.busStall addr dir bytes) s = .next (raise .busabandon ([4, 0] ++ be 2 (min bytes.length 65535)) t))

/-- What a read frame returns after a command is answered, and that another role's record is not touched (R171, R172;
spec/12, Bus frames). -/
def Obligations.ReadRecord : Prop :=
  ∀ (s : State) (addr : BitVec 7) (r : Role) (code : Byte) (res : ResultCode) (data : List Byte) (k : Nat),
    s.resetLine = false → roleAt s.bus.strap addr = some r → data.length ≤ 250 →
    (s.answered r code res data).busRead addr (4 + data.length + k) =
      some ([2, BitVec.ofNat 8 res.code, code, BitVec.ofNat 8 data.length] ++ data ++ List.replicate k 0xFF) ∧
    (s.answered r code res data).executing r = false ∧
    ∀ (a : BitVec 7) (q : Role) (n : Nat), roleAt s.bus.strap a = some q → q ≠ r →
      (s.answered r code res data).busRead a n = s.busRead a n

/-! ## House clock -/

/-- DIVIDER_TERMINAL_COUNT and WORD_CLOCK_EDGE with the RESET line negated, once what fell due before is over
(`settle`, the rows of what can be due, each taken as its own command in one fixed order, the model's choice, log 4). A
terminal count begins the divider again from 0 under the present N, and is a house sample event in INTERNAL and
HOLDOVER alone (R1). An edge is ignored in INTERNAL; it is a house sample event in FOLLOWING that sets the divider
count and the loss measure to 0; in HOLDOVER it begins the loss measure anew and an idle return watch begins counting
(R2, R3, R5). While the master clock is stopped neither makes a house sample, and the divider has no terminal count
(R1). That the edge's restart of the divider loads N as well is the model's choice (log 19), and so are the edge
bringing whether the master clock is stopped and what it still sets there (log 61). A house sample event while the
RESET line is negated: it counts in the counter, on word clock out and in an open return-watch period, it is a block
event exactly when the new counter is a multiple of 32, and it leaves the partition, the mutes, the cue list, the
interface, the pending bank, the routing map and the setups as they were (R5, R7 to R9). The fall of a block event
makes every awaiting command, the copy and the take due (R61, R100, R101, R113, R119; the due marks are the model's
own, log 4), and in RUNNING the open watch period of a feed that is judged and every part-received lane block count it
(R12, R15, R29); at any other house sample event none of these changes. -/
def Obligations.ClockEvents : Prop :=
  (∀ (s u v w : State) (take : State → Instr → State) (row : Awaiting → Instr),
     (∀ c s t, exec c s = .next t → take s c = t) →
     (∀ e, row e = match e.order with | .stop r _ _ => .stopOnAirTake r | .onair _ => .onairTake) →
     u = ([.transitionEnd, .paceWindowExpiry .a, .paceWindowExpiry .b, .burstWindowExpiry .a, .burstWindowExpiry .b,
       .returnPeriodGood, .flushComplete] : List Instr).foldl take s →
     v = ([.blockEvent u.mutePin false, .startupEnd, .laneBlockAbandon .a .l0, .laneBlockAbandon .a .l1,
       .laneBlockAbandon .b .l0, .laneBlockAbandon .b .l1, .watchPeriodClose .a, .watchPeriodClose .b] :
         List Instr).foldl take u →
     w = ((v.sel.awaiting.filter fun e => e.due).map row).foldl take v →
     (s.resetLine = true → settle s = s) ∧ (s.resetLine = false → settle s = take (take w .sceneCopy) .take)) ∧
  (∀ (s u : State) (reads : SampleReads), u = settle s → u.resetLine = false →
     (u.mclkStopped = true → exec (.dividerTerminalCount reads) s = .next u) ∧
     (u.mclkStopped = false → u.clock.state = .following →
       exec (.dividerTerminalCount reads) s = .next
         { u with clock := { u.clock with divCount := 0, loadedN := u.clock.n } }) ∧
     (u.mclkStopped = false → u.clock.state ≠ .following →
       exec (.dividerTerminalCount reads) s = .next
         (houseSample reads { u with clock := { u.clock with divCount := 0, loadedN := u.clock.n } }))) ∧
  (∀ (s u : State) (reads : SampleReads) (stopped : Bool), u = { settle s with mclkStopped := stopped } →
     u.resetLine = false →
     (u.clock.state = .internal → exec (.wordClockEdge ⟨reads, stopped⟩) s = .next u) ∧
     (u.clock.state = .following →
       exec (.wordClockEdge ⟨reads, stopped⟩) s = .next
         (if stopped then
           { u with clock := { u.clock with divCount := 0, loadedN := u.clock.n, lossMeasure := 0 } }
         else
           houseSample reads
             { u with clock := { u.clock with divCount := 0, loadedN := u.clock.n, lossMeasure := 0 } })) ∧
     (u.clock.state = .holdover → u.clock.watch = .idle →
       exec (.wordClockEdge ⟨reads, stopped⟩) s = .next
         { u with clock := { u.clock with lossMeasure := 0, watch := .counting 0 } }) ∧
     (u.clock.state = .holdover → u.clock.watch ≠ .idle →
       exec (.wordClockEdge ⟨reads, stopped⟩) s = .next { u with clock := { u.clock with lossMeasure := 0 } })) ∧
  (∀ (s t : State) (reads : SampleReads), s.resetLine = false → t = houseSample reads s →
     t.clock.counter = s.clock.counter + 1 ∧ t.clock.wclkOut = s.clock.wclkOut + 1 ∧
     (∀ c, s.clock.state = .holdover → s.clock.watch = .counting c → t.clock.watch = .counting (c + 1)) ∧
     (s.clock.state ≠ .holdover ∨ s.clock.watch = .idle ∨ s.clock.watch = .waiting → t.clock.watch = s.clock.watch) ∧
     t.clock = { s.clock with counter := t.clock.counter, wclkOut := t.clock.wclkOut, watch := t.clock.watch } ∧
     t.blockDue = (s.blockDue || decide ((s.clock.counter + 1).toNat % 32 = 0)) ∧
     (t.pagesA, t.pagesB, t.pagesD) = (s.pagesA, s.pagesB, s.pagesD) ∧
     (t.groups, t.gcMute, t.muteLast, t.muteAccepted, t.mutePin, t.mclkStopped) =
       (s.groups, s.gcMute, s.muteLast, s.muteAccepted, s.mutePin, s.mclkStopped) ∧
     t.cues = s.cues ∧ t.bus = s.bus ∧ t.notices.routing = s.notices.routing ∧ t.pending = s.pending ∧
     t.scene.pendingBank = s.scene.pendingBank ∧ t.scene.state = s.scene.state ∧ t.scene.cut = s.scene.cut ∧
     t.feedA.setup = s.feedA.setup ∧ t.feedB.setup = s.feedB.setup) ∧
  (∀ (s t : State) (reads : SampleReads) (falls : Prop) (fell : Await → Await) (heard : Receiver → Receiver),
     s.resetLine = false → t = houseSample reads s → (falls ↔ (s.clock.counter + 1).toNat % 32 = 0) →
     (∀ a, fell a = match a with | .waiting => .due | .none => .none | .due => .due) →
     (∀ r, heard r = match r with
       | .heading got silent => .heading got (silent + 1)
       | .receiving v body due silent => .receiving v body due (silent + 1)
       | .hunting => .hunting
       | .halfSync => .halfSync) →
     (falls →
       t.sel.awaiting = s.sel.awaiting.map (fun e => { e with due := true }) ∧
       t.scene.copy = fell s.scene.copy ∧ t.scene.take = fell s.scene.take ∧
       (s.clock.phase = .running → ∀ x,
         ((t.feed x).rx0, (t.feed x).rx1) = (heard (s.feed x).rx0, heard (s.feed x).rx1) ∧
         ((s.feed x).watch.armed = true → (t.feed x).inPlay = true → (s.feed x).intakeEnded = false →
           (t.feed x).watch = { (s.feed x).watch with blocks := (s.feed x).watch.blocks + 1 }) ∧
         ((s.feed x).watch.armed = false ∨ (t.feed x).inPlay = false ∨ (s.feed x).intakeEnded = true →
           (t.feed x).watch = (s.feed x).watch))) ∧
     (¬ falls →
       t.sel.awaiting = s.sel.awaiting ∧ t.scene.copy = s.scene.copy ∧ t.scene.take = s.scene.take) ∧
     (¬ falls ∨ s.clock.phase = .starting → ∀ x,
       ((t.feed x).rx0, (t.feed x).rx1, (t.feed x).watch) = ((s.feed x).rx0, (s.feed x).rx1, (s.feed x).watch)))

/-- WORD_CLOCK_LOSS, which raises no notice under the RESET line, LOSS_CONDITION, and RETURN_PERIOD_GOOD with the RESET
line negated (R4, R5, R13). The watch of R4 does not count while the master clock is stopped, so neither loss comes then
(R1). -/
def Obligations.ClockWatch : Prop :=
  (∀ s : State, s.mclkStopped = true → exec .wordClockLoss s = .next s ∧ exec .lossCondition s = .next s) ∧
  (∀ s : State, s.mclkStopped = false →
    (s.clock.state ≠ .following → exec .wordClockLoss s = .next s) ∧
    (s.resetLine = false → s.clock.state = .following →
      exec .wordClockLoss s = .next
        (raise .clock [0, 0, 0, 0]
          { s with clock := { s.clock with state := .holdover, watch := .idle, good := 0 } })) ∧
    (s.resetLine = true → s.clock.state = .following →
      exec .wordClockLoss s = .next
        { s with clock := { s.clock with state := .holdover, watch := .idle, good := 0 } })) ∧
  (∀ s : State, s.mclkStopped = false →
    (s.clock.state = .holdover → s.clock.watch ≠ .idle →
      exec .lossCondition s = .next { s with clock := { s.clock with watch := .idle, good := 0 } }) ∧
    (s.clock.state ≠ .holdover ∨ s.clock.watch = .idle → exec .lossCondition s = .next s)) ∧
  (∀ (s : State) (c : Nat), s.resetLine = false → s.clock.state = .holdover → s.clock.watch = .counting c →
    (c < 1024 → exec .returnPeriodGood s = .next s) ∧
    (1024 ≤ c → s.clock.good = 0 →
      exec .returnPeriodGood s = .next { s with clock := { s.clock with good := 1, watch := .counting 0 } }) ∧
    (1024 ≤ c → s.clock.good = 1 →
      exec .returnPeriodGood s = .next { s with clock := { s.clock with good := 2, watch := .waiting } }))

/-- CLOCKSET: its refusals in order, and its effect on the house clock unit when the class stays (R11). CLOCKSET to
the other class: the class, C and each feed's nominal ratio are new; a setup that fails checks 1 to 3 of FEEDSET under
the new ratio is replaced by the default, and a pending PLAY is dropped if the feed is then unplaced; the answer says
which (R11, R34, R38). -/
def Obligations.Clockset : Prop :=
  (∀ (s : State) (addr : BitVec 7) (source house n : Byte), s.Serves addr .system →
     (s.bus.lock = true →
       exec (.clockset addr [source, house, n]) s = .next ((caughtUp s).answered .system 0x40 .locked [])) ∧
     (s.bus.lock = false → (1 < source.toNat ∨ 1 < house.toNat ∨ n.toNat < 31) →
       exec (.clockset addr [source, house, n]) s = .next ((caughtUp s).answered .system 0x40 .range [])) ∧
     (s.bus.lock = false → source.toNat ≤ 1 → house.toNat ≤ 1 → 31 ≤ n.toNat → house.toNat ≠ s.clock.rateClass.code →
       (s.scene.active ≠ [] ∨ s.scene.state ≠ .free ∨ (caughtUp s).feedA.inPlay = true ∨
         (caughtUp s).feedB.inPlay = true) →
       exec (.clockset addr [source, house, n]) s = .next ((caughtUp s).answered .system 0x40 .busy [])) ∧
     (s.bus.lock = false → source.toNat ≤ 1 → 31 ≤ n.toNat → house.toNat = s.clock.rateClass.code →
       exec (.clockset addr [source, house, n]) s = .next
         ({ caughtUp s with
             clock :=
               if source = 0 then
                 { s.clock with source := .internal, n := n.toNat, state := .internal, watch := .idle, good := 0 }
               else if s.clock.source = ClockSource.internal then
                 { s.clock with source := .external, n := n.toNat, state := .holdover, watch := .idle, good := 0 }
               else { s.clock with n := n.toNat } }.answered .system 0x40 .ok [0]))) ∧
  (∀ (s : State) (addr : BitVec 7) (source n : Byte) (house : Rate), s.Serves addr .system → s.bus.lock = false →
     source.toNat ≤ 1 → 31 ≤ n.toNat → house ≠ s.clock.rateClass → s.scene.active = [] → s.scene.state = .free →
     s.sel.state.inTransition = false → s.feedA.inPlay = false → s.feedB.inPlay = false →
     ∃ (t : State) (res : ResultCode) (data : Byte),
       exec (.clockset addr [source, BitVec.ofNat 8 house.code, n]) s = .next (t.answered .system 0x40 res [data]) ∧
       t = { s with clock := t.clock, feedA := t.feedA, feedB := t.feedB } ∧
       t.clock =
         (if source = 0 then
           { s.clock with
             rateClass := house, source := .internal, n := n.toNat, state := .internal, watch := .idle, good := 0 }
         else if s.clock.source = ClockSource.internal then
           { s.clock with
             rateClass := house, source := .external, n := n.toNat, state := .holdover, watch := .idle, good := 0 }
         else { s.clock with rateClass := house, n := n.toNat }) ∧
       (∀ x : Side,
         ((s.feed x).setup.passes house = true →
           t.feed x = { s.feed x with
             rs := { (s.feed x).rs with
               rNom := (s.feed x).setup.nominal house, r := (s.feed x).setup.nominal house, acc := 0, servoErr := 0
               clamped := false } }) ∧
         ((s.feed x).setup.passes house = false →
           (t.feed x).setup = { mode := .streaming, rate := house, speed := .one, n := 16, lanes := 1, dExp := 11,
                                wExp := 3 } ∧
           (t.feed x).rs.rNom = 268435456 ∧ (t.feed x).rs.r = 268435456 ∧ (t.feed x).rs.acc = (0 : Int) ∧
           (t.feed x).h = 0 ∧ (t.feed x).s0 = 0 ∧ (t.feed x).last0 = none ∧ (t.feed x).last1 = none ∧
           (t.feed x).st = (s.feed x).st ∧ (t.feed x).completion = (s.feed x).completion ∧
           (t.feed x).pendingPlay = if 32 ≤ s.pages x then (s.feed x).pendingPlay else none)) ∧
       res = (if s.feedA.setup.passes house && s.feedB.setup.passes house then .ok else .clamped) ∧
       data.getLsbD 0 = !s.feedA.setup.passes house ∧ data.getLsbD 1 = !s.feedB.setup.passes house ∧
       data.getLsbD 2 = (!s.feedA.setup.passes house && s.feedA.pendingPlay.isSome && decide (s.pagesA < 32)) ∧
       data.getLsbD 3 = (!s.feedB.setup.passes house && s.feedB.pendingPlay.isSome && decide (s.pagesB < 32)))

/-- The block event of STARTING: the page named is scrubbed and the next one named, finished releases leave the active
bank, and nothing of the program moves; the block event that wrote page 1023 ends STARTING (R12, R126, R129). -/
def Obligations.ScrubAndStartup : Prop :=
  (∀ (s : State) (mute cuesFirst : Bool), s.resetLine = false → s.blockDue = true → s.clock.phase = .starting →
    s.sel.over = false →
    ∃ t, exec (.blockEvent mute cuesFirst) s = .next t ∧ t.blockDue = false ∧
      (s.clock.scrubPage < 1024 →
        t.clock.scrubPage = s.clock.scrubPage + 1 ∧
        ∀ a, t.mem.read a =
          if a / 1024 = s.clock.scrubPage then { sample := 0, good := true } else s.mem.read a) ∧
      (1024 ≤ s.clock.scrubPage → t.clock.scrubPage = s.clock.scrubPage ∧ t.mem = s.mem) ∧
      t.clock.counter = s.clock.counter ∧ t.clock.phase = .starting ∧
      (t.feedA, t.feedB, t.sel, t.outs, t.cues, t.bus) = (s.feedA, s.feedB, s.sel, s.outs, s.cues, s.bus) ∧
      t.scene = { s.scene with active := s.scene.active.filter fun e => !(e.releasing && e.gain == 0) }) ∧
  (∀ s : State, s.resetLine = false → s.clock.phase = .starting → 1024 ≤ s.clock.scrubPage →
    exec .startupEnd s = .next { s with clock := { s.clock with phase := .running } }) ∧
  (∀ s : State, s.clock.phase = .running ∨ s.clock.scrubPage < 1024 → exec .startupEnd s = .next s) ∧
  (∀ (s : State) (mute cuesFirst : Bool), s.blockDue = false → exec (.blockEvent mute cuesFirst) s = .next s)

/-- The return to word clock in at the first block event after the good-period count has reached 2, with CLOCK raised,
and at no other block event (R6). The MUTE line at a block event, in both phases: a level is accepted at the second
sample that finds it, and a single sample changes nothing (R143, R144). The block event of RUNNING, whole: after the
clock's return and the MUTE line, both underrun marks are cleared, the servo steps, the standby's alignment is judged,
PRIMED feeds are taken, finished releases leave the active bank, and the cue pass fires before these judgements or after
them, as the command says (R72, R80, R91, R92, R126, R160; the orders that are offered are the model's choice, log 7).
-/
def Obligations.BlockEventSamples : Prop :=
  (∀ (s : State) (mute cuesFirst : Bool), s.resetLine = false → s.blockDue = true →
     ∃ t, exec (.blockEvent mute cuesFirst) s = .next t ∧
       ((s.clock.state = .holdover ∧ s.clock.good = 2) →
         t.clock.state = .following ∧ t.clock.good = 0 ∧ t.clock.watch = .idle ∧ t.clock.lossMeasure = 0 ∧
         ∀ r, s.notices.routing.getD 13 none = some r →
           ∃ v ∈ t.notices.queues.get r, v.kind = .clock ∧ v.detail = [1, 0, 0, 0] ∧
             v.time = s.clock.counter.setWidth 32) ∧
       (¬ (s.clock.state = .holdover ∧ s.clock.good = 2) →
         t.clock.state = s.clock.state ∧ t.clock.good = s.clock.good ∧ t.clock.watch = s.clock.watch ∧
         t.clock.lossMeasure = s.clock.lossMeasure)) ∧
  (∀ (s : State) (level cuesFirst : Bool), s.resetLine = false → s.blockDue = true →
     ∃ t, exec (.blockEvent level cuesFirst) s = .next t ∧ t.muteLast = level ∧ t.mutePin = level ∧
       t.muteAccepted = (if level = s.muteLast then level else s.muteAccepted) ∧ t.gcMute = s.gcMute ∧
       ∀ r, s.notices.routing.getD 14 none = some r → level = s.muteLast → level ≠ s.muteAccepted → s.gcMute = false →
         ∃ v ∈ t.notices.queues.get r, v.kind = .mute ∧ v.detail = [if level then 1 else 0, 1, 0, if level then 1 else 0]) ∧
  (∀ (s a b c v : State) (mute cuesFirst : Bool) (released : State → State), s.resetLine = false → s.blockDue = true →
     s.clock.phase = .running → s.sel.over = false →
     (∀ u, released u = { u with scene := { u.scene with
       active := u.scene.active.filter fun e : ActiveRoute => !(e.releasing && e.gain == 0) } }) →
     a = { s with blockDue := false, mutePin := mute } →
     b = (if s.clock.state = .holdover ∧ s.clock.good = 2 then
         raise .clock [1, 0, 0, 0]
           { a with clock := { s.clock with state := .following, watch := .idle, good := 0, lossMeasure := 0 } }
       else a) →
     c = raiseIf (decide (mute = s.muteLast ∧ mute ≠ s.muteAccepted ∧ s.gcMute = false)) .mute
       [if mute then 1 else 0, 1, 0, if mute then 1 else 0]
       { b with muteLast := mute, muteAccepted := if mute = s.muteLast then mute else s.muteAccepted } →
     v = servoStep { c with
       feedA := { c.feedA with rs := { c.feedA.rs with underrun := false } }
       feedB := { c.feedB with rs := { c.feedB.rs with underrun := false } } } →
     exec (.blockEvent mute cuesFirst) s = .next
       (if cuesFirst then released (takePrimed (judgeAlignment (cuePass v)))
       else cuePass (released (takePrimed (judgeAlignment v)))))

/-! ## Feed lanes -/

/-- A lane receiver: LANE_BLOCK_BEGIN, LANE_BLOCK_ARRIVE short of a block's last byte, and LANE_BLOCK_ABANDON. Hunting
for the sync word, it passes over bytes without 6Bh; 6Bh and D2h followed by the eight header bytes are a block's
beginning, whichever row brings them; bytes may come in one stretch or in several. Only the named receiver and the
feed's pace state change (R15, R188). A beginning enters the lane in lanes begun of an outstanding request or an open
window, which in BURST mode closes when every used lane has begun. A block that began and is abandoned, or whose
channel count frames no block, enters lanes ended: a SINGLE request is answered when every used lane has ended, and in
BURST mode a new window opens then if the line is still asserted (R26, R28), with empty lane sets (the model's choice,
log 66). That LANE_BLOCK_BEGIN stands for the ten bytes of a sync word and a header, and that a block begins for the
pace state with its sync word, is the model's choice (log 28), and so is the dropping of the part-received block of a
lane that the setup has left unused (log 55). -/
def Obligations.LaneReceiver : Prop :=
  ∀ (full : Feed → LaneSet → Bool) (ended : Feed → Lane → Pace → Pace),
  (∀ f v, full f v = (v.l0 && (v.l1 || f.setup.lanes != 2))) →
  (∀ f l p, ended f l p =
    if p.begun.get l = false ∨ f.setup.mode = .streaming then p
    else if f.setup.mode = .single then
      if p.isOpen then { p with ended := p.ended.add l, isOpen := !full f (p.ended.add l) } else p
    else if p.isOpen = false ∧ p.line = true ∧ full f (p.ended.add l) = true then
      { p with
        isOpen := true, try2 := false, window := 0, begun := { l0 := false, l1 := false }
        ended := { l0 := false, l1 := false } }
    else { p with ended := p.ended.add l }) →
  (∀ (s : State) (x : Side) (l : Lane) (v : LaneHeader) (begun : Pace), s.resetLine = false →
    (l = .l1 → (s.feed x).setup.lanes = 2) → ((s.feed x).rx l = .hunting ∨ (s.feed x).rx l = .halfSync) →
    begun = (if (s.feed x).pace.isOpen then
        { (s.feed x).pace with
          begun := (s.feed x).pace.begun.add l
          isOpen := (s.feed x).setup.mode == .single || !full (s.feed x) ((s.feed x).pace.begun.add l) }
      else (s.feed x).pace) →
    exec (.laneBlockBegin x l v) s = .next
        (s.setFeed x
          (if v.count.toNat = 0 ∨ 48 < v.count.toNat then
            { (s.feed x).setRx l .hunting with pace := ended (s.feed x) l begun }
          else { (s.feed x).setRx l (.receiving v [] (96 * v.count.toNat + 2) 0) with pace := begun })) ∧
    exec (.laneBlockArrive x l ([0x6B, 0xD2, v.laneNo, v.count, v.flags] ++ be 5 v.stamp.toNat)) s =
      exec (.laneBlockBegin x l v) s ∧
    (∀ got : List Byte, got.length < 8 →
      exec (.laneBlockArrive x l ([0x6B, 0xD2] ++ got)) s = .next
        (s.setFeed x { (s.feed x).setRx l (.heading got 0) with pace := begun }))) ∧
  (∀ (s : State) (x : Side) (l : Lane) (v : LaneHeader),
    s.resetLine = true ∨ (l = .l1 ∧ (s.feed x).setup.lanes ≠ 2) ∨
      ((s.feed x).rx l ≠ .hunting ∧ (s.feed x).rx l ≠ .halfSync) →
    exec (.laneBlockBegin x l v) s = .next s) ∧
  (∀ (s : State) (x : Side) (l : Lane) (v : LaneHeader) (body bytes : List Byte) (due silent : Nat),
    s.resetLine = false → (l = .l1 → (s.feed x).setup.lanes = 2) → (s.feed x).rx l = .receiving v body due silent →
    0 < bytes.length → bytes.length < due →
    exec (.laneBlockArrive x l bytes) s = .next
      (s.setFeed x ((s.feed x).setRx l (.receiving v (body ++ bytes) (due - bytes.length) 0)))) ∧
  (∀ (s : State) (x : Side) (l : Lane) (bytes : List Byte),
    (s.resetLine = true ∨ (l = .l1 ∧ (s.feed x).setup.lanes ≠ 2) ∨ bytes = [] ∨
      ((s.feed x).rx l = .hunting ∧ ∀ b ∈ bytes, b ≠ 0x6B)) →
    exec (.laneBlockArrive x l bytes) s = .next s) ∧
  (∀ (s u : State) (x : Side) (l : Lane) (p q : List Byte), exec (.laneBlockArrive x l p) s = .next u →
    exec (.laneBlockArrive x l (p ++ q)) s = exec (.laneBlockArrive x l q) u) ∧
  (∀ (s : State) (x : Side) (l : Lane) (v : LaneHeader) (body got : List Byte) (due silent : Nat), s.resetLine = false →
    ((s.feed x).rx l = .receiving v body due silent ∨ (s.feed x).rx l = .heading got silent) →
    (silent < 2 → exec (.laneBlockAbandon x l) s = .next s) ∧
    (2 ≤ silent → exec (.laneBlockAbandon x l) s = .next
      (s.setFeed x { (s.feed x).setRx l .hunting with pace := ended (s.feed x) l (s.feed x).pace })))

/-- A block whose last byte arrives and that is not placed, in every mode: it is discarded, or it is an overrun and
SLIP is raised (R16 to R18, R22). In the paced modes it counts as ended if it began within the request or window: a
SINGLE request is answered when every used lane has ended, and in BURST mode a new window opens when every used lane
has ended with the line still asserted (R16, R26, R28), with empty lane sets (the model's choice, log 66). -/
def Obligations.LaneBlockDiscarded : Prop :=
  ∀ (full : Feed → LaneSet → Bool) (ended : Feed → Lane → Pace → Pace),
  (∀ f v, full f v = (v.l0 && (v.l1 || f.setup.lanes != 2))) →
  (∀ f l p, ended f l p =
    if p.begun.get l = false ∨ f.setup.mode = .streaming then p
    else if f.setup.mode = .single then
      if p.isOpen then { p with ended := p.ended.add l, isOpen := !full f (p.ended.add l) } else p
    else if p.isOpen = false ∧ p.line = true ∧ full f (p.ended.add l) = true then
      { p with
        isOpen := true, try2 := false, window := 0, begun := { l0 := false, l1 := false }
        ended := { l0 := false, l1 := false } }
    else { p with ended := p.ended.add l }) →
  ∀ (s u : State) (x : Side) (l : Lane) (v : LaneHeader) (body bytes : List Byte) (silent t : Nat) (f : Feed),
    s.resetLine = false → f = s.feed x → (l = .l1 → f.setup.lanes = 2) →
    f.rx l = .receiving v body bytes.length silent → 0 < bytes.length → s.sel.over = false →
    t = v.stamp.toNat → u = s.setFeed x { f.setRx l .hunting with pace := ended f l f.pace } →
    ((f.st = .idle ∨ f.st = .complete ∨ s.clock.phase = .starting ∨ s.pages x * 1024 < 2 ^ f.setup.dExp * f.setup.n) →
      exec (.laneBlockArrive x l bytes) s = .next u) ∧
    ((t % 32 ≠ 0 ∨ (∃ p, f.last l = some p ∧ t ≤ p) ∨ t < f.s0 ∨ t + 39 < f.rs.i ∨ (∃ e, f.sourceEnd = some e ∧ e < t)) →
      exec (.laneBlockArrive x l bytes) s = .next u) ∧
    (checkRight v (body ++ bytes) = true → (v.laneNo.toNat ≠ l.code ∨ v.count.toNat ≠ f.setup.laneCount l) →
      exec (.laneBlockArrive x l bytes) s = .next u) ∧
    (f.inPlay = true → s.clock.phase = .running → f.setup.n * 2 ^ f.setup.dExp ≤ s.pages x * 1024 → t % 32 = 0 →
      (∀ p, f.last l = some p → p < t) → f.s0 ≤ t → f.rs.i ≤ t + 39 → (∀ e, f.sourceEnd = some e → t ≤ e) →
      f.h ≤ t → (f.rs.i + 2 ^ f.setup.dExp ≤ t ∨ ∃ q, (f.slotAt t).stamp = some q ∧ f.rs.i ≤ q + 39) →
      (checkRight v (body ++ bytes) = true → v.laneNo.toNat = l.code → v.count.toNat = f.setup.laneCount l →
        exec (.laneBlockArrive x l bytes) s = .next
          (raise .slip ([BitVec.ofNat 8 x.code, 0] ++ be 2 (t / 32 % 65536)) u)) ∧
      (checkRight v (body ++ bytes) = false → exec (.laneBlockArrive x l bytes) s = .next u))

/-- A valid block at or beyond the head of a feed with one lane, in every mode: its slot is GOOD, the slots of the gap
before it are MISSING, the head and the last accepted stamp follow, END marks the source end, every sample lies in its
word and no other word changes, a SEEKING feed may become PRIMED, a paced feed's block counts as ended, and DAMAGE is
raised for a gap (R14, R16, R17, R19, R22, R26, R28, R52). The block arms the lane watch or sets its mark, unless the
intake had ended before it (R29; that the block which ends the intake still counts is the model's choice, log 48). A
block with a wrong check word at or beyond the head: its slot is DAMAGED, the gap is entered as before, DAMAGE is
raised, no sample is written, no END flag is taken and no mark is set for the lane watch (R17, R19, R29). A half on a
lane of a feed with two, with a right or a wrong check word: at or beyond the head its slot is FILLING, or DAMAGED if
the check word is wrong, and the slots of a gap are MISSING; below the head the slot becomes GOOD, or stays DAMAGED, or
is DAMAGED with DAMAGE raised where it was MISSING or the check word is wrong; slots that this lane left FILLING two
blocks behind become DAMAGED; and END, PRIMED, the watch and the pace state go as on one lane, a paced request being
answered when both lanes have ended; in BURST mode only a half that raises the fill to the target or beyond negates the
line (R14, R17, R19 to R22, R26, R28, R29, R52). The order of several DAMAGE notices of one arrival, a gap or a skipped
half, then the check word, then the skews by rising stamp, is the model's choice (log 20), and so are the empty lane
sets of the BURST window that opens when a window's blocks have ended (log 66). -/
def Obligations.LaneBlockPlaced : Prop :=
  (∀ (s : State) (x : Side) (v : LaneHeader) (body bytes : List Byte) (silent t : Nat) (f : Feed),
     s.MemOk → s.resetLine = false → s.clock.phase = .running → s.sel.over = false → f = s.feed x → t = v.stamp.toNat →
     f.rx .l0 = .receiving v body bytes.length silent → 0 < bytes.length →
     body.length + bytes.length = 96 * f.setup.n + 2 → f.setup.lanes = 1 →
     9 ≤ f.setup.dExp → f.ring.length = 2 ^ f.setup.dExp / 32 → f.h % 32 = 0 → f.inPlay = true →
     f.setup.n * 2 ^ f.setup.dExp ≤ s.pages x * 1024 → v.laneNo = 0 → v.count.toNat = f.setup.n →
     checkRight v (body ++ bytes) = true → t % 32 = 0 → (∀ p, f.last0 = some p → p < t) → f.s0 ≤ t → f.rs.i ≤ t + 39 →
     f.sourceEnd = none → f.h ≤ t → t < f.rs.i + 2 ^ f.setup.dExp →
     (∀ q, (f.slotAt t).stamp = some q → q + 39 < f.rs.i) →
     ∃ (u : State) (g : Feed), exec (.laneBlockArrive x .l0 bytes) s = .next u ∧ g = u.feed x ∧ u.feed x.other = s.feed x.other ∧
       g.rx .l0 = .hunting ∧ g.slotAt t = { stamp := some t, state := .good, got := { l0 := true, l1 := false } } ∧
       (∀ j, f.h + 32 * j < t → t < f.h + 32 * j + 2 ^ f.setup.dExp →
         g.slotAt (f.h + 32 * j) =
           { stamp := some (f.h + 32 * j), state := .missing, got := { l0 := false, l1 := false } }) ∧
       g.h = t + 32 ∧ g.last0 = some t ∧ g.last1 = f.last1 ∧ g.s0 = f.s0 ∧ g.rs = f.rs ∧ g.setup = f.setup ∧
       g.sourceEnd = (if v.flags.getLsbD 0 then some (t + 31) else none) ∧
       g.st = (if f.st = .seeking ∧ (2 ^ f.setup.dExp / 2 ≤ t + 32 - f.rs.i ∨ g.intakeEnded = true) then .primed
         else f.st) ∧
       (f.intakeEnded = false → g.watch.armed = true ∧ g.watch.marks.l0 = true) ∧
       (f.intakeEnded = true → g.watch = f.watch) ∧
       (f.setup.mode = .single → g.intakeEnded = false →
         g.pace = if f.pace.begun.l0 ∧ f.pace.isOpen then { f.pace with ended := { f.pace.ended with l0 := true }, isOpen := false }
           else f.pace) ∧
       (f.setup.mode = .burst → g.intakeEnded = false → t + 32 - f.rs.i < 2 ^ f.setup.dExp / 2 →
         g.pace =
           if f.pace.begun.l0 = false then f.pace
           else if f.pace.isOpen = false ∧ f.pace.line = true then
             { f.pace with
               isOpen := true, try2 := false, window := 0, begun := { l0 := false, l1 := false }
               ended := { l0 := false, l1 := false } }
           else { f.pace with ended := { f.pace.ended with l0 := true } }) ∧
       (f.setup.mode = .streaming ∨ g.intakeEnded = true ∨ f.setup.mode = .burst ∧ 2 ^ f.setup.dExp / 2 ≤ t + 32 - f.rs.i →
         g.pace.line = false ∧ g.pace.isOpen = false) ∧
       (∀ c k, c < f.setup.n → k < 32 →
         u.mem.read (s.ringAddr x c (t + k)) =
           { sample := BitVec.ofNat 24 (ofBe (((body ++ bytes).drop (3 * (k * f.setup.n + c))).take 3)), good := true }) ∧
       (∀ a, (∀ c k, c < f.setup.n → k < 32 → a ≠ s.ringAddr x c (t + k)) → u.mem.read a = s.mem.read a) ∧
       u.notices = (if f.h < t then raise .damage ([BitVec.ofNat 8 x.code, 1] ++ be 2 (f.h / 32 % 65536)) s else s).notices ∧
       g = { f with
         ring := g.ring, h := g.h, last0 := g.last0, sourceEnd := g.sourceEnd, rx0 := g.rx0, pace := g.pace
         watch := g.watch, st := g.st } ∧
       u = { s with feedA := u.feedA, feedB := u.feedB, mem := u.mem, notices := u.notices }) ∧
  (∀ (s s1 : State) (x : Side) (l : Lane) (v : LaneHeader) (body bytes : List Byte) (silent t : Nat) (f : Feed),
     s.resetLine = false → s.clock.phase = .running → s.sel.over = false → f = s.feed x → t = v.stamp.toNat →
     l = .l0 → f.rx l = .receiving v body bytes.length silent → 0 < bytes.length →
     f.setup.lanes = 1 → f.ring.length = 2 ^ f.setup.dExp / 32 → 5 ≤ f.setup.dExp → f.h % 32 = 0 → f.inPlay = true →
     f.setup.n * 2 ^ f.setup.dExp ≤ s.pages x * 1024 → checkRight v (body ++ bytes) = false → t % 32 = 0 →
     (∀ p, f.last0 = some p → p < t) → f.s0 ≤ t → f.rs.i ≤ t + 39 → (∀ e, f.sourceEnd = some e → t ≤ e) → f.h ≤ t →
     t < f.rs.i + 2 ^ f.setup.dExp → (∀ q, (f.slotAt t).stamp = some q → q + 39 < f.rs.i) →
     (s1 = if f.h < t then raise .damage ([BitVec.ofNat 8 x.code, 1] ++ be 2 (f.h / 32 % 65536)) s else s) →
     ∃ (u : State) (g : Feed), exec (.laneBlockArrive x l bytes) s = .next u ∧ g = u.feed x ∧
       u.feed x.other = s.feed x.other ∧ g.rx l = .hunting ∧
       g.slotAt t = { stamp := some t, state := .damaged, got := { l0 := true, l1 := false } } ∧ g.h = t + 32 ∧
       (∀ j, f.h + 32 * j < t → t < f.h + 32 * j + 2 ^ f.setup.dExp →
         g.slotAt (f.h + 32 * j) =
           { stamp := some (f.h + 32 * j), state := .missing, got := { l0 := false, l1 := false } }) ∧
       g.last0 = some t ∧
       g.st = (if f.st = .seeking ∧ (2 ^ f.setup.dExp / 2 ≤ t + 32 - f.rs.i ∨ g.intakeEnded = true) then .primed
         else f.st) ∧
       (f.setup.mode = .single → g.intakeEnded = false →
         g.pace = if f.pace.begun.l0 ∧ f.pace.isOpen then { f.pace with ended := { f.pace.ended with l0 := true }, isOpen := false }
           else f.pace) ∧
       (f.setup.mode = .burst → g.intakeEnded = false → t + 32 - f.rs.i < 2 ^ f.setup.dExp / 2 →
         g.pace =
           if f.pace.begun.l0 = false then f.pace
           else if f.pace.isOpen = false ∧ f.pace.line = true then
             { f.pace with
               isOpen := true, try2 := false, window := 0, begun := { l0 := false, l1 := false }
               ended := { l0 := false, l1 := false } }
           else { f.pace with ended := { f.pace.ended with l0 := true } }) ∧
       (f.setup.mode = .streaming ∨ g.intakeEnded = true ∨ f.setup.mode = .burst ∧ 2 ^ f.setup.dExp / 2 ≤ t + 32 - f.rs.i →
         g.pace.line = false ∧ g.pace.isOpen = false) ∧
       g = { f with ring := g.ring, h := g.h, last0 := g.last0, rx0 := g.rx0, pace := g.pace, st := g.st } ∧
       u = { s with feedA := u.feedA, feedB := u.feedB, notices := u.notices } ∧
       u.notices = (raise .damage ([BitVec.ofNat 8 x.code, 0] ++ be 2 (t / 32 % 65536)) s1).notices) ∧
  (∀ (s s1 s2 : State) (x : Side) (l : Lane) (v : LaneHeader) (body bytes : List Byte)
     (silent t count first depth : Nat) (f : Feed) (ok : Bool) (only done : LaneSet) (hit : Nat → Prop)
     (lags : Nat → Slot → Prop),
     s.MemOk → s.resetLine = false → s.clock.phase = .running → s.sel.over = false → f = s.feed x → f.RingOk →
     depth = 2 ^ f.setup.dExp → t = v.stamp.toNat → f.rx l = .receiving v body bytes.length silent → 0 < bytes.length →
     f.setup.lanes = 2 →
     (count, first) = (match l with | .l0 => ((f.setup.n + 1) / 2, 0) | .l1 => (f.setup.n / 2, (f.setup.n + 1) / 2)) →
     f.inPlay = true → f.setup.n * depth ≤ s.pages x * 1024 → ok = checkRight v (body ++ bytes) →
     (ok = true → body.length + bytes.length = 96 * count + 2 ∧ v.laneNo.toNat = l.code ∧ v.count.toNat = count) →
     t % 32 = 0 → (∀ p, f.last l = some p → p < t) → f.s0 ≤ t → f.rs.i ≤ t + 39 →
     (∀ e, f.sourceEnd = some e → t ≤ e) →
     (f.h ≤ t ∧ t < f.rs.i + depth ∧ (∀ q, (f.slotAt t).stamp = some q → q + 39 < f.rs.i) ∨
       t < f.h ∧ (f.slotAt t).stamp = some t ∧ (f.slotAt t).got.get l = false) →
     only = { l0 := l == .l0, l1 := l == .l1 } → done = f.pace.ended.add l →
     (∀ k, hit k ↔ k = t / 32 % (depth / 32) ∨
       ∃ q, q % 32 = 0 ∧ f.h ≤ q ∧ q < t ∧ t < q + depth ∧ k = q / 32 % (depth / 32)) →
     (∀ k w, lags k w ↔ f.ring[k]? = some w ∧ ¬ hit k ∧ w.state = .filling ∧ w.got = only ∧
       ∃ q, w.stamp = some q ∧ q + 64 ≤ t) →
     (s1 = if f.h < t then raise .damage ([BitVec.ofNat 8 x.code, 1] ++ be 2 (f.h / 32 % 65536)) s
       else if t < f.h ∧ (f.slotAt t).state = .missing ∧ ok = true then
         raise .damage ([BitVec.ofNat 8 x.code, 2] ++ be 2 (t / 32 % 65536)) s
       else s) →
     (s2 = if ok then s1 else raise .damage ([BitVec.ofNat 8 x.code, 0] ++ be 2 (t / 32 % 65536)) s1) →
     ∃ (u : State) (g : Feed), exec (.laneBlockArrive x l bytes) s = .next u ∧ g = u.feed x ∧
       u.feed x.other = s.feed x.other ∧ g.rx l = .hunting ∧ g.last l = some t ∧
       (∀ k, k ≠ l → g.last k = f.last k ∧ g.rx k = f.rx k) ∧ g.h = max f.h (t + 32) ∧
       (f.h ≤ t → g.slotAt t = { stamp := some t, state := if ok then .filling else .damaged, got := only }) ∧
       (∀ j, f.h + 32 * j < t → t < f.h + 32 * j + depth →
         g.slotAt (f.h + 32 * j) =
           { stamp := some (f.h + 32 * j), state := .missing, got := { l0 := false, l1 := false } }) ∧
       (t < f.h → g.slotAt t =
         { stamp := some t
           state := if ok = true ∧ ((f.slotAt t).state = .filling ∨ (f.slotAt t).state = .good) then .good else .damaged
           got := (f.slotAt t).got.add l }) ∧
       (∀ k w, f.ring[k]? = some w → ¬ hit k →
         (lags k w → g.ring[k]? = some { w with state := .damaged }) ∧ (¬ lags k w → g.ring[k]? = some w)) ∧
       g.sourceEnd = (if ok = true ∧ v.flags.getLsbD 0 = true then
           some (match f.sourceEnd with | some e => min e (t + 31) | none => t + 31) else f.sourceEnd) ∧
       g.st = (if f.st = .seeking ∧ (depth / 2 ≤ g.h - f.rs.i ∨ g.intakeEnded = true) then .primed else f.st) ∧
       (ok = true → f.intakeEnded = false → g.watch =
         if f.watch.armed then { f.watch with marks := f.watch.marks.add l }
         else { f.watch with armed := true, blocks := 0, marks := only, paceBad := false, iOpen := f.rs.i }) ∧
       (ok = false ∨ f.intakeEnded = true → g.watch = f.watch) ∧
       (f.setup.mode = .single → g.intakeEnded = false → g.pace =
         if f.pace.begun.get l = true ∧ f.pace.isOpen = true then
           { f.pace with ended := done, isOpen := !(done.l0 && done.l1) }
         else f.pace) ∧
       (f.setup.mode = .burst → g.intakeEnded = false →
         ¬ (f.h - f.rs.i < g.h - f.rs.i ∧ depth / 2 ≤ g.h - f.rs.i) → g.pace =
         if f.pace.begun.get l = false then f.pace
         else if f.pace.isOpen = false ∧ f.pace.line = true ∧ done = { l0 := true, l1 := true } then
           { f.pace with
             isOpen := true, try2 := false, window := 0, begun := { l0 := false, l1 := false }
             ended := { l0 := false, l1 := false } }
         else { f.pace with ended := done }) ∧
       (f.setup.mode = .streaming ∨ g.intakeEnded = true ∨
           f.setup.mode = .burst ∧ f.h - f.rs.i < g.h - f.rs.i ∧ depth / 2 ≤ g.h - f.rs.i →
         g.pace.line = false ∧ g.pace.isOpen = false) ∧
       g = { f with
         ring := g.ring, h := g.h, last0 := g.last0, last1 := g.last1, sourceEnd := g.sourceEnd, rx0 := g.rx0
         rx1 := g.rx1, pace := g.pace, watch := g.watch, st := g.st } ∧
       u = { s with feedA := u.feedA, feedB := u.feedB, mem := u.mem, notices := u.notices } ∧
       (ok = false → u.mem = s.mem) ∧
       (ok = true → ∀ c k, c < count → k < 32 →
         u.mem.read (s.ringAddr x (first + c) (t + k)) =
           { sample := BitVec.ofNat 24 (ofBe (((body ++ bytes).drop (3 * (k * count + c))).take 3)), good := true }) ∧
       (∀ a, (∀ c k, c < count → k < 32 → a ≠ s.ringAddr x (first + c) (t + k)) → u.mem.read a = s.mem.read a) ∧
       ∀ late : List Nat, late.Pairwise (· < ·) → (∀ q, q ∈ late ↔ ∃ k w, lags k w ∧ w.stamp = some q) →
         u.notices = (late.foldl
           (fun v q => raise .damage ([BitVec.ofNat 8 x.code, 3] ++ be 2 (q / 32 % 65536)) v) s2).notices)

/-- The pace state at a house sample event, by the fill measured before the feed's read position moves (log 11).
SINGLE: with no request outstanding it makes one when the fill is 32 or more below the target; while one is outstanding
the line is negated again and the window counts until every used lane has begun. BURST: the line is asserted with a new
window while the fill is below the target, asserted again with a window of try 2 after a first expiry, and negated with
its window closed once the fill has reached the target; an open window counts until every used lane has begun.
STREAMING, a feed whose intake has ended or that is not in play, and STARTING: the line is negated and the window
closed (R25, R26, R28). That a request made at the event after the last one was answered leaves the line asserted is
the model's choice (log 62). A house sample event of RUNNING does this for both feeds. The pace windows' expiries: a
second try, then PACELATE and the pace-bad mark of an armed watch (R27, R28); that PACELATE does not name the unused
lane 1 of a one-lane feed is the model's choice (log 59), and so are the empty lane sets of the BURST window after a
second expiry (log 66), and a feed that completes at the house sample event at which its window reaches 128, whose
window is closed with no expiry (log 71). -/
def Obligations.PaceLine : Prop :=
  (∀ (f g : Feed) (starting : Bool) (fill target : Nat) (fresh : Pace) (begun : Prop), g = f.paceSample starting →
     fill = f.h - f.rs.i → target = 2 ^ f.setup.dExp / 2 →
     fresh = { line := true, isOpen := true, try2 := false, window := 0, begun := { l0 := false, l1 := false },
               ended := { l0 := false, l1 := false }, reassert := false } →
     (begun ↔ f.pace.begun.l0 = true ∧ (f.setup.lanes = 2 → f.pace.begun.l1 = true)) →
     g = { f with pace := g.pace } ∧
     (starting = true ∨ f.setup.mode = .streaming ∨ f.inPlay = false ∨ f.intakeEnded = true →
       g.pace.line = false ∧ g.pace.isOpen = false ∧ g.pace.reassert = false) ∧
     (starting = false → f.setup.mode = .single → f.inPlay = true → f.intakeEnded = false →
       (f.pace.isOpen = true → begun → g.pace = { f.pace with line := false }) ∧
       (f.pace.isOpen = true → ¬ begun → g.pace = { f.pace with line := false, window := f.pace.window + 1 }) ∧
       (f.pace.isOpen = false → fill + 32 ≤ target → g.pace = fresh) ∧
       (f.pace.isOpen = false → target < fill + 32 → g.pace = { f.pace with line := false })) ∧
     (starting = false → f.setup.mode = .burst → f.inPlay = true → f.intakeEnded = false →
       (target ≤ fill → g.pace.line = false ∧ g.pace.isOpen = false ∧ g.pace.reassert = false) ∧
       (fill < target →
         (f.pace.reassert = true → g.pace = { fresh with try2 := true }) ∧
         (f.pace.reassert = false → f.pace.line = false → g.pace = fresh) ∧
         (f.pace.reassert = false → f.pace.line = true → f.pace.isOpen = true → ¬ begun →
           g.pace = { f.pace with window := f.pace.window + 1 }) ∧
         (f.pace.reassert = false → f.pace.line = true → f.pace.isOpen = false ∨ begun → g.pace = f.pace)))) ∧
  (∀ (s t : State) (reads : SampleReads) (x : Side), s.resetLine = false → s.clock.phase = .running →
     t = houseSample reads s →
     ((t.feed x).st = (s.feed x).st → (t.feed x).pace = ((s.feed x).paceSample false).pace) ∧
     ((t.feed x).st ≠ (s.feed x).st →
       (t.feed x).st = .complete ∧ (t.feed x).pace.line = false ∧ (t.feed x).pace.isOpen = false)) ∧
  (∀ (s : State) (x : Side) (f : Feed), f = s.feed x → s.resetLine = false →
     (f.setup.mode ≠ .single ∨ f.pace.isOpen = false ∨ f.pace.window < 128 →
       exec (.paceWindowExpiry x) s = .next s) ∧
     (f.setup.mode ≠ .burst ∨ f.pace.isOpen = false ∨ f.pace.window < 128 →
       exec (.burstWindowExpiry x) s = .next s) ∧
     (f.pace.isOpen = true → 128 ≤ f.pace.window → (f.pace.begun.l0 = false ∨ f.setup.lanes = 2 ∧ f.pace.begun.l1 = false) →
       (f.setup.mode = .single → f.pace.try2 = false →
         exec (.paceWindowExpiry x) s = .next
           (s.setFeed x { f with pace := { f.pace with line := true, try2 := true, window := 0 } })) ∧
       (f.setup.mode = .single → f.pace.try2 = true →
         exec (.paceWindowExpiry x) s = .next
           (raise .pacelate
             [BitVec.ofNat 8 x.code,
               BitVec.ofNat 8 ((if f.pace.begun.l0 then 0 else 1) + if f.setup.lanes = 2 ∧ f.pace.begun.l1 = false then 2 else 0),
               0, 0]
             (s.setFeed x { f with
               pace := { f.pace with isOpen := false }
               watch := { f.watch with paceBad := f.watch.paceBad || f.watch.armed } }))) ∧
       (f.setup.mode = .burst → f.pace.try2 = false →
         exec (.burstWindowExpiry x) s = .next
           (s.setFeed x { f with pace := { f.pace with line := false, isOpen := false, reassert := true } })) ∧
       (f.setup.mode = .burst → f.pace.try2 = true →
         exec (.burstWindowExpiry x) s = .next
           (raise .pacelate
             [BitVec.ofNat 8 x.code,
               BitVec.ofNat 8 ((if f.pace.begun.l0 then 0 else 1) + if f.setup.lanes = 2 ∧ f.pace.begun.l1 = false then 2 else 0),
               0, 0]
             (s.setFeed x { f with
               pace := { f.pace with
                 try2 := false, window := 0, begun := { l0 := false, l1 := false }
                 ended := { l0 := false, l1 := false } }
               watch := { f.watch with paceBad := f.watch.paceBad || f.watch.armed } })))))

/-- WATCH_PERIOD_CLOSE: the judgement of the period, the counts that saturate at 2, the two confirmations, and the
next period's opening (R29 to R31). That LANELOST does not name the unused lane 1 of a one-lane feed is the model's
choice (log 58). -/
def Obligations.WatchClose : Prop :=
  ∀ (s : State) (x : Side) (f : Feed) (bad : Prop), f = s.feed x → s.resetLine = false → s.sel.over = false →
    (f.watch.armed = false ∨ f.inPlay = false ∨ f.intakeEnded = true ∨ f.watch.blocks < 2 ^ f.setup.wExp →
      exec (.watchPeriodClose x) s = .next s) ∧
    (f.watch.armed = true → f.inPlay = true → f.intakeEnded = false → 2 ^ f.setup.wExp ≤ f.watch.blocks →
      (f.watch.paceBad = false → f.st ≠ .seeking → f.rs.i = f.watch.iOpen →
        exec (.watchPeriodClose x) s = .next (s.setFeed x { f with
          watch := { f.watch with blocks := 0, marks := { l0 := false, l1 := false }, iOpen := f.rs.i } })) ∧
      (bad = (f.watch.paceBad = true ∨ ((f.st = .seeking ∨ f.rs.i ≠ f.watch.iOpen) ∧
          (f.watch.marks.l0 = false ∨ f.setup.lanes = 2 ∧ f.watch.marks.l1 = false))) →
        (bad → f.watch.bad = 0 ∨ f.watch.absent = true →
          exec (.watchPeriodClose x) s = .next (s.setFeed x { f with
            watch := { f.watch with
              blocks := 0, marks := { l0 := false, l1 := false }, paceBad := false, iOpen := f.rs.i
              bad := min (f.watch.bad + 1) 2, good := 0 } })) ∧
        (bad → f.watch.bad = 1 → f.watch.absent = false →
          exec (.watchPeriodClose x) s = .next (lossTaken x (raise .lanelost
            [BitVec.ofNat 8 x.code, 0,
              BitVec.ofNat 8 ((if f.watch.marks.l0 then 0 else 1) + if f.setup.lanes = 2 ∧ f.watch.marks.l1 = false then 2 else 0),
              0]
            (s.setFeed x { f with
              watch := { f.watch with
                blocks := 0, marks := { l0 := false, l1 := false }, paceBad := false, iOpen := f.rs.i, bad := 2, good := 0
                absent := true } })))) ∧
        (¬ bad → (f.st = .seeking ∨ f.rs.i ≠ f.watch.iOpen) → f.watch.good = 0 ∨ f.watch.absent = false →
          exec (.watchPeriodClose x) s = .next (s.setFeed x { f with
            watch := { f.watch with
              blocks := 0, marks := { l0 := false, l1 := false }, paceBad := false, iOpen := f.rs.i, bad := 0
              good := min (f.watch.good + 1) 2 } })) ∧
        (¬ bad → (f.st = .seeking ∨ f.rs.i ≠ f.watch.iOpen) → f.watch.good = 1 → f.watch.absent = true →
          exec (.watchPeriodClose x) s = .next (raise .lanelost [BitVec.ofNat 8 x.code, 1, 0, 0]
            (s.setFeed x { f with
              watch := { f.watch with
                blocks := 0, marks := { l0 := false, l1 := false }, paceBad := false, iOpen := f.rs.i, bad := 0, good := 2
                absent := false } })))))

/-- A confirmed loss, by the feed's state and the selector's (R58, R93, R94, R98, R99, R105; the state a loss of R30
leaves). SILENCE names the feed last heard, and FFh where none was (the model's choice, log 26); n0 and j at 0 where a
fade or a crossfade begins are its choice too (log 16). -/
def Obligations.Failover : Prop :=
  ∀ (s : State) (x y : Side) (f : Feed), f = s.feed x → y = x.other →
    (f.st = .seeking ∨ f.st = .primed ∨ f.st = .running ∧ f.role = .standby →
      ∃ t, lossTaken x s = raise .feeddone ([BitVec.ofNat 8 x.code, 4] ++ be 2 (f.rs.i % 65536)) t ∧
        t.feed x = { f with
          st := .complete, role := .none, ending := none, completion := some { reason := .laneLost, final := f.rs.i }
          pace := (t.feed x).pace } ∧ (t.feed x).pace.line = false ∧
        t.feed y = s.feed y ∧ (s.sel.cold = some x → t.sel.cold = none) ∧ t.sel.state = s.sel.state) ∧
    (f.st = .idle ∨ f.st = .ending ∨ f.st = .complete → lossTaken x s = s) ∧
    (f.st = .running → f.role = .leader → s.sel.state = .onair x →
      ((s.feed y).isStandby = true → s.sel.aligned = true →
        lossTaken x s = raise .failover
          ([if x = .a then 2 else 1, 0] ++ be 2 (s.sel.pos % 65536))
          ((({ s with
                sel := { s.sel with
                  state := .xfade x, n := 0, kx := s.sel.policyKx, abandoned := false, n0 := 0, j := 0, cold := none
                  aligned := false } }).setFeed x
              { f with st := .ending, role := .outgoing, ending := some .laneLost }).setFeed y
              { s.feed y with role := .leader })) ∧
      ((s.feed y).isStandby = true → s.sel.aligned = false →
        lossTaken x s = raise .failover
          ([if x = .a then 6 else 5, 0] ++ be 2 (s.sel.pos % 65536))
          ({ s with
              sel := { s.sel with
                state := .fade x, n := 0, kx := s.sel.policyKx, abandoned := false, n0 := 0, j := 0, cold := some y
                fadeCause := .loss } }.setFeed x { f with st := .ending, ending := some .laneLost })) ∧
      ((s.feed y).isStandby = false →
        lossTaken x s =
          { s with
              sel := { s.sel with
                state := .fade x, n := 0, kx := s.sel.policyKx, abandoned := false, n0 := 0, j := 0, cold := none
                fadeCause := .loss } }.setFeed x { f with st := .ending, ending := some .laneLost })) ∧
    (f.st = .running → f.role = .leader → s.sel.state = .xfade y →
      lossTaken x s =
        { s with sel := { s.sel with abandoned := true, n0 := s.sel.n, j := 0 } }.setFeed x
          { f with st := .ending, ending := some .laneLost }) ∧
    (f.st = .running → f.role = .outgoing → s.sel.state = .xfade x →
      lossTaken x s = s.setFeed x { f with st := .ending, ending := some .laneLost }) ∧
    (f.st = .running → f.role = .leader → s.sel.state = .rise x → 0 < s.sel.n →
      lossTaken x s =
        { s with
            sel := { s.sel with
              state := .fade x, n := 2 ^ s.sel.kx - s.sel.n, cold := none, fadeCause := .fadeBack } }.setFeed x
          { f with st := .ending, ending := some .laneLost }) ∧
    (f.st = .running → f.role = .leader → s.sel.state = .rise x → s.sel.n = 0 →
      (lossTaken x s).sel.state = .silent ∧ ((lossTaken x s).feed x).st = .complete ∧
      ((lossTaken x s).feed x).completion = some { reason := .laneLost, final := f.rs.i } ∧
      (lossTaken x s).feed y = s.feed y ∧
      ∀ r, s.resetLine = false → s.notices.routing.getD 3 none = some r →
        ∃ v ∈ (lossTaken x s).notices.queues.get r, v.kind = .silence ∧
          v.detail = [match s.sel.lastHeard with | some .a => (0 : Byte) | some .b => 1 | none => 0xFF, 2] ++
            be 2 (s.sel.pos % 65536))

/-! ## Playback -/

/-- The nominal ratio of a setup in a house: floor(2^28 × base × s_num / s_den), for each feed rate, rate class and
speed factor (R66). FEEDSET: its checks in order, and what a taken one leaves (R33, R34, R66); that it keeps both lane
receivers, also that of a lane which the new setup does not use, is the model's choice (log 55). A FEEDSET whose mode,
feed rate or speed factor has no meaning (R33, check 1). -/
def Obligations.Feedset : Prop :=
  (∀ (u : Setup) (house : Rate) (baseNum baseDen num den : Nat),
     (baseNum, baseDen) = (match u.rate, house with
       | .k48, .k96 => (1, 2) | .k48, .k48 => (1, 1) | .k96, .k96 => (1, 1) | .k96, .k48 => (2, 1)) →
     (num, den) = (match u.speed with
       | .one => (1, 1) | .pullUp => (1001, 1000) | .pullDown => (1000, 1001) | .up25 => (25, 24)
       | .down24 => (24, 25)) →
     u.nominal house = 268435456 * baseNum * num / (baseDen * den)) ∧
  (∀ (s c : State) (addr : BitVec 7) (r : Role) (x : Side) (u : Setup), s.Serves addr r → MayCommand r x →
     c = caughtUp s → u.n < 256 → u.lanes < 256 → u.dExp < 256 → u.wExp < 256 →
     ((c.feed x).inPlay = true →
       exec (.feedset addr (be 1 x.code ++ u.bytes)) s = .next (c.answered r 0x10 .busy [])) ∧
     ((c.feed x).inPlay = false →
       (¬ ((u.lanes = 1 ∨ u.lanes = 2) ∧ u.lanes ≤ u.n ∧ u.n ≤ (if u.rate = .k48 then 48 else 24) * u.lanes ∧
           9 ≤ u.dExp ∧ u.dExp ≤ 13 ∧ 2 ≤ u.wExp ∧ u.wExp ≤ 5) →
         exec (.feedset addr (be 1 x.code ++ u.bytes)) s = .next (c.answered r 0x10 .range [1])) ∧
       ((u.lanes = 1 ∨ u.lanes = 2) → u.lanes ≤ u.n → u.n ≤ (if u.rate = .k48 then 48 else 24) * u.lanes →
           9 ≤ u.dExp → u.dExp ≤ 13 → 2 ≤ u.wExp → u.wExp ≤ 5 →
         (2 ^ u.wExp * u.nominal s.clock.rateClass < 2 * 268435456 →
           exec (.feedset addr (be 1 x.code ++ u.bytes)) s = .next (c.answered r 0x10 .range [2])) ∧
         (2 * 268435456 ≤ 2 ^ u.wExp * u.nominal s.clock.rateClass →
           2 ^ u.dExp / 2 <
             2 * 2 ^ u.wExp * 32 * (if u.nominal s.clock.rateClass ≤ 268435456 then 1
               else if u.nominal s.clock.rateClass ≤ 536870912 then 2 else 3) + 64 →
           exec (.feedset addr (be 1 x.code ++ u.bytes)) s = .next (c.answered r 0x10 .range [3])) ∧
         (2 * 268435456 ≤ 2 ^ u.wExp * u.nominal s.clock.rateClass →
           2 * 2 ^ u.wExp * 32 * (if u.nominal s.clock.rateClass ≤ 268435456 then 1
               else if u.nominal s.clock.rateClass ≤ 536870912 then 2 else 3) + 64 ≤ 2 ^ u.dExp / 2 →
           (s.pages x * 1024 < 2 ^ u.dExp * u.n →
             exec (.feedset addr (be 1 x.code ++ u.bytes)) s = .next (c.answered r 0x10 .noRoom [])) ∧
           (2 ^ u.dExp * u.n ≤ s.pages x * 1024 →
             ∃ g : Feed, exec (.feedset addr (be 1 x.code ++ u.bytes)) s = .next ((c.setFeed x g).answered r 0x10 .ok []) ∧
               g = { c.feed x with
                 setup := u, ring := List.replicate (2 ^ u.dExp / 32) ⟨none, .empty, ⟨false, false⟩⟩, h := 0, s0 := 0
                 last0 := none, last1 := none, sourceEnd := none, pace := g.pace, watch := g.watch
                 rs := { (c.feed x).rs with
                   rNom := u.nominal s.clock.rateClass, r := u.nominal s.clock.rateClass, acc := 0, servoErr := 0
                   clamped := false } } ∧
               g.pace.line = false ∧ g.pace.isOpen = false ∧ g.watch.armed = false ∧ g.watch.absent = false ∧
               g.watch.bad = 0 ∧ g.watch.good = 0 ∧ g.watch.marks = ⟨false, false⟩))))) ∧
  (∀ (s : State) (addr : BitVec 7) (r : Role) (x : Side) (mode rate speed lanes n d w : Byte), s.Serves addr r →
     MayCommand r x → ((caughtUp s).feed x).inPlay = false → (2 < mode.toNat ∨ 1 < rate.toNat ∨ 4 < speed.toNat) →
     exec (.feedset addr (be 1 x.code ++ [mode, rate, speed, lanes, n, d, w])) s = .next
       ((caughtUp s).answered r 0x10 .range [1]))

/-- PLAY: its checks in order, taking it in IDLE and holding it in COMPLETE (R49 to R51). -/
def Obligations.Play : Prop :=
  ∀ (s c : State) (addr : BitVec 7) (r : Role) (x : Side) (pos count : Nat), s.Serves addr r → MayCommand r x →
    c = caughtUp s → pos < 2 ^ 40 → count < 2 ^ 32 →
    (2 ^ 40 - 1 < pos + count →
      exec (.play addr (be 1 x.code ++ be 5 pos ++ be 4 count)) s = .next (c.answered r 0x11 .range [])) ∧
    (pos + count ≤ 2 ^ 40 - 1 →
      ((c.feed x).inPlay = true →
        exec (.play addr (be 1 x.code ++ be 5 pos ++ be 4 count)) s = .next (c.answered r 0x11 .busy [])) ∧
      ((c.feed x).st = .complete → (c.feed x).pendingPlay ≠ none →
        exec (.play addr (be 1 x.code ++ be 5 pos ++ be 4 count)) s = .next (c.answered r 0x11 .pending [])) ∧
      ((c.feed x).st = .idle ∨ (c.feed x).st = .complete ∧ (c.feed x).pendingPlay = none →
        s.pages x * 1024 < 2 ^ (c.feed x).setup.dExp * (c.feed x).setup.n →
        exec (.play addr (be 1 x.code ++ be 5 pos ++ be 4 count)) s = .next (c.answered r 0x11 .noRoom [])) ∧
      (2 ^ (c.feed x).setup.dExp * (c.feed x).setup.n ≤ s.pages x * 1024 →
        ((c.feed x).st = .complete → (c.feed x).pendingPlay = none →
          exec (.play addr (be 1 x.code ++ be 5 pos ++ be 4 count)) s = .next
            ((c.setFeed x { c.feed x with pendingPlay := some ⟨pos, count⟩ }).answered r 0x11 .ok [1])) ∧
        ((c.feed x).st = .idle →
          ∃ g : Feed, exec (.play addr (be 1 x.code ++ be 5 pos ++ be 4 count)) s = .next
              ((c.setFeed x g).answered r 0x11 .ok [0]) ∧
            g = { c.feed x with
              startPos := pos, count := count, ending := none, completion := none, st := .seeking, role := .none
              ring := List.replicate (2 ^ (c.feed x).setup.dExp / 32) ⟨none, .empty, ⟨false, false⟩⟩
              h := 32 * (pos / 32), s0 := 32 * (pos / 32), last0 := none, last1 := none, sourceEnd := none
              pace := g.pace, watch := g.watch
              rs := { (c.feed x).rs with r := (c.feed x).rs.rNom, acc := 0, i := pos, phi := 0, held := false } } ∧
            g.pace.line = false ∧ g.pace.isOpen = false ∧ g.watch.armed = false)))

/-- A STOP of a feed that is SEEKING, PRIMED, or RUNNING as STANDBY ends it at once: COMPLETE with the reason STOPPED,
the final position S or the slaved position, FEEDDONE raised, OK with data 2, the leader and the selector going on
without a standby (R60, with the effects of R57). -/
def Obligations.StopAtOnce : Prop :=
  ∀ (s c : State) (addr : BitVec 7) (r : Role) (x : Side) (mode : Byte) (f : Feed) (final : Nat), s.Serves addr r →
    MayCommand r x → c = caughtUp s → f = c.feed x → mode.toNat ≤ 1 → c.ProgramOk →
    (f.st = .seeking ∨ f.st = .primed ∨ f.st = .running ∧ f.role = .standby) →
    final = (if f.st = .running then c.sel.pos else f.startPos) →
    ∃ (t : State) (g : Feed), exec (.stop addr [BitVec.ofNat 8 x.code, mode]) s = .next (t.answered r 0x12 .ok [2]) ∧
      t = { (c.setFeed x g) with
        notices := (raise .feeddone ([BitVec.ofNat 8 x.code, 3] ++ be 2 (final % 65536)) c).notices, sel := t.sel } ∧
      t.sel = { c.sel with
        aligned := c.sel.aligned && !f.isStandby, cold := if c.sel.cold = some x then none else c.sel.cold } ∧
      g = { f with
        st := .complete, role := .none, ending := none, completion := some { reason := .stopped, final := final }
        pace := g.pace } ∧ g.pace.line = false ∧ (f.st = .running → t.standby = none)

/-- STOP: a mode of no meaning, the states that it does not end at once, and the wait of an on-air STOP (R59, R61). That
a STOP which reaches the selector while a block event is due is due at once is the model's choice (log 4). -/
def Obligations.Stop : Prop :=
  ∀ (s c : State) (addr : BitVec 7) (r : Role) (x : Side) (mode : Byte) (f : Feed), s.Serves addr r →
    MayCommand r x → c = caughtUp s → f = c.feed x →
    (1 < mode.toNat →
      exec (.stop addr [BitVec.ofNat 8 x.code, mode]) s = .next (c.answered r 0x12 .range [])) ∧
    (mode.toNat ≤ 1 →
      (f.st = .idle ∨ f.st = .ending ∨ f.st = .complete ∧ f.pendingPlay = none →
        exec (.stop addr [BitVec.ofNat 8 x.code, mode]) s = .next (c.answered r 0x12 .nothing [0])) ∧
      (f.st = .complete → f.pendingPlay ≠ none →
        exec (.stop addr [BitVec.ofNat 8 x.code, mode]) s = .next
          ((c.setFeed x { f with pendingPlay := none }).answered r 0x12 .ok [1])) ∧
      (f.st = .running → (f.role = .leader ∨ f.role = .outgoing) →
        exec (.stop addr [BitVec.ofNat 8 x.code, mode]) s = .next
          { c with
            bus := c.bus.handedOver r 0x12
            sel := { c.sel with
              awaiting := c.sel.awaiting ++ [{ order := .stop r x (mode == 0), due := s.blockDue }] } }))

/-- STOP_ON_AIR_TAKE: an awaiting STOP is taken once its block event has fallen and every command that reached the
selector before it has been taken, by the selector's state and the feed's role (R61, R99, R100, R105). A STOP whose
feed has left RUNNING is answered NOTHING, and one whose feed runs again is taken as any other (the model's choice, log
25); SILENCE names FFh where no feed was heard (log 26), FEEDDONE is raised before SILENCE (log 20), and n0 and j are 0
where a transition begins or has ended (log 16). A STOP whose feed has become the standby completes it with the reason
STOPPED and FEEDDONE, a cold flag that names it is cleared, and the selector goes on (R57, R60, R61, R91). -/
def Obligations.StopOnAir : Prop :=
  (∀ (s u : State) (r : Role) (x : Side) (handover : Bool) (rest : List Awaiting) (code : Byte) (f : Feed)
    (done : Feed → Feed),
    (∀ g, done g = { g with
      st := .complete, role := .none, ending := none, completion := some { reason := .stopped, final := g.rs.i }
      pace := ⟨false, false, false, 0, ⟨false, false⟩, ⟨false, false⟩, false⟩ }) →
    s.resetLine = false → s.sel.over = false → s.sel.awaiting = { order := .stop r x handover, due := true } :: rest →
    s.bus.slots.get r = .executing code → f = s.feed x → u = { s with sel := { s.sel with awaiting := rest } } →
    (f.st = .running → f.role = .leader → s.sel.state = .onair x →
      (handover = true → (s.feed x.other).isStandby = true → s.sel.aligned = true →
        exec (.stopOnAirTake r) s = .next
          (((({ u with
              sel := { u.sel with
                state := .xfade x, n := 0, kx := s.sel.policyKx, abandoned := false, n0 := 0, j := 0, cold := none
                aligned := false } }).setFeed x
              { f with st := .ending, role := .outgoing, ending := some .stopped }).setFeed x.other
              { s.feed x.other with role := .leader }).answered r code .ok [3])) ∧
      (handover = false ∨ (s.feed x.other).isStandby = false ∨ s.sel.aligned = false →
        exec (.stopOnAirTake r) s = .next
          (({ u with
              sel := { u.sel with
                state := .fade x, n := 0, kx := s.sel.policyKx, abandoned := false, n0 := 0, j := 0, cold := none
                fadeCause := .stop } }.setFeed x
              { f with st := .ending, ending := some .stopped }).answered r code .ok [4]))) ∧
    (f.st = .running → f.role = .leader → s.sel.state = .rise x →
      (0 < s.sel.n →
        exec (.stopOnAirTake r) s = .next
          (({ u with
              sel := { u.sel with
                state := .fade x, n := 2 ^ s.sel.kx - s.sel.n, cold := none, fadeCause := .fadeBack } }.setFeed
              x { f with st := .ending, ending := some .stopped }).answered r code .ok [4])) ∧
      (s.sel.n = 0 →
        exec (.stopOnAirTake r) s = .next
          ((raise .silence
            ([match s.sel.lastHeard with | some .a => (0 : Byte) | some .b => 1 | none => 0xFF, 2] ++
              be 2 (s.sel.pos % 65536))
            (raise .feeddone ([BitVec.ofNat 8 x.code, 3] ++ be 2 (f.rs.i % 65536)) { u.setFeed x (done f) with
              sel := { u.sel with
                state := .silent, n := 0, abandoned := false, n0 := 0, j := 0, cold := none } })).answered
              r code .ok [4]))) ∧
    (f.st = .running → f.role = .leader → s.sel.state = .xfade x.other →
      exec (.stopOnAirTake r) s = .next
        (({ u with sel := { u.sel with abandoned := true, n0 := s.sel.n, j := 0 } }.setFeed x
            { f with st := .ending, ending := some .stopped }).answered r code .ok [4])) ∧
    (f.st = .running → f.role = .outgoing → s.sel.state = .xfade x →
      exec (.stopOnAirTake r) s = .next
        ((u.setFeed x { f with st := .ending, ending := some .stopped }).answered r code .ok [4])) ∧
    (f.st ≠ .running → exec (.stopOnAirTake r) s = .next (u.answered r code .nothing [0])) ∧
    (f.st = .running → f.role = .standby →
      exec (.stopOnAirTake r) s = .next
        ((raise .feeddone ([BitVec.ofNat 8 x.code, 3] ++ be 2 (f.rs.i % 65536)) { u.setFeed x (done f) with
          sel := { u.sel with aligned := false, cold := if u.sel.cold = some x then none else u.sel.cold } }).answered
            r code .ok [2]))) ∧
  ∀ (s : State) (q : Role),
    (∀ x handover rest, s.sel.awaiting ≠ { order := .stop q x handover, due := true } :: rest) →
    exec (.stopOnAirTake q) s = .next s

/-- FEEDACK (R62). -/
def Obligations.Feedack : Prop :=
  ∀ (s c : State) (addr : BitVec 7) (r : Role) (x : Side) (f : Feed), s.Serves addr r → MayCommand r x →
    c = caughtUp s → f = c.feed x →
    (f.st ≠ .complete →
      exec (.feedack addr [BitVec.ofNat 8 x.code]) s = .next (c.answered r 0x13 .nothing [])) ∧
    (∀ rec, f.st = .complete → f.completion = some rec →
      (f.pendingPlay = none →
        exec (.feedack addr [BitVec.ofNat 8 x.code]) s = .next
          ((c.setFeed x { f with st := .idle, completion := none }).answered r 0x13 .ok
            ([(match rec.reason with | .count => 1 | .sourceEnd => 2 | .stopped => 3 | .laneLost => 4 : Byte)] ++
              be 5 rec.final ++ [0]))) ∧
      (∀ v, f.pendingPlay = some v →
        exec (.feedack addr [BitVec.ofNat 8 x.code]) s = .next
          ((c.setFeed x { f.takePlay v with pendingPlay := none }).answered r 0x13 .ok
            ([(match rec.reason with | .count => 1 | .sourceEnd => 2 | .stopped => 3 | .laneLost => 4 : Byte)] ++
              be 5 rec.final ++ [1])) ∧
        (f.takePlay v).st = .seeking ∧ (f.takePlay v).startPos = v.pos ∧ (f.takePlay v).count = v.count ∧
        (f.takePlay v).completion = none ∧ (f.takePlay v).h = 32 * (v.pos / 32) ∧ (f.takePlay v).rs.i = v.pos ∧
        (f.takePlay v).rs.phi = 0 ∧ (f.takePlay v).rs.r = f.rs.rNom ∧ (f.takePlay v).rs.acc = 0))

/-! ## Rate tracking and resampling -/

/-- The servo at a block event: the integrator at the clamp that it passed, the error recorded, the ratio from the
unclamped offset or at the clamp it passed; it runs for a streaming leader alone, on air, fading, rising or in a
crossfade, and a clamped step raises TRACKLIMIT (R72, R73). That at a block event which falls before a transition's
first house sample a rise is not servoed and a crossfade's outgoing feed still is, is the model's reading (log 44). -/
def Obligations.Servo : Prop :=
  (∀ (v w : Resampler) (fill target : Nat) (offset : Int), w = v.servo fill target →
    offset = ((fill : Int) - target) * 64 + w.acc / 16 →
    w.servoErr = (fill : Int) - target ∧ -1048576 ≤ w.acc ∧ w.acc ≤ 1048575 ∧
    (-1048576 ≤ v.acc + w.servoErr → v.acc + w.servoErr ≤ 1048575 → w.acc = v.acc + w.servoErr) ∧
    (1048575 < v.acc + w.servoErr → w.acc = 1048575) ∧ (v.acc + w.servoErr < -1048576 → w.acc = -1048576) ∧
    (w.rNom, w.i, w.phi, w.underrun) = (v.rNom, v.i, v.phi, v.underrun) ∧
    (-((v.rNom / 512 : Nat) : Int) ≤ offset → offset ≤ (v.rNom / 512 : Nat) →
      w.clamped = false ∧ (w.r : Int) = v.rNom + offset) ∧
    (((v.rNom / 512 : Nat) : Int) < offset → w.clamped = true ∧ w.r = v.rNom + v.rNom / 512) ∧
    (offset < -((v.rNom / 512 : Nat) : Int) → w.clamped = true ∧ w.r = v.rNom - v.rNom / 512)) ∧
  (∀ (s : State) (x : Side) (w : Resampler),
    (s.sel.state = .onair x ∨ s.sel.state = .fade x ∨ s.sel.state = .rise x ∧ s.sel.formed ≠ 0 ∨
      s.sel.state = .xfade x.other ∧ s.sel.formed ≠ 0 ∨ s.sel.state = .xfade x ∧ s.sel.formed = 0) →
    w = (s.feed x).rs.servo ((s.feed x).h - (s.feed x).rs.i) (2 ^ (s.feed x).setup.dExp / 2) →
    ((s.feed x).isRead = true → (s.feed x).setup.mode = .streaming →
      servoStep s =
        if w.clamped then
          raise .tracklimit ([BitVec.ofNat 8 x.code, if (s.feed x).rs.rNom < w.r then 0 else 1] ++ beInt 2 w.servoErr)
            (s.setFeed x { s.feed x with rs := w })
        else s.setFeed x { s.feed x with rs := w }) ∧
    ((s.feed x).setup.mode ≠ .streaming → servoStep s = s)) ∧
  (∀ s : State, (s.sel.state = .silent ∨ ∃ x, s.sel.state = .rise x ∧ s.sel.formed = 0) → servoStep s = s)

/-- One advance of a read position: i and phase together move by exactly the ratio; an advance that would carry them
beyond the last frame leaves (2^40 - 1, 0), and every later advance leaves that (R69; that a position which stands
there for another reason does not hold is the model's reading, log 17). A house sample event of RUNNING moves the read
positions: the leader advances and its new position is published, every other feed that is read takes it, in SILENT the
position is frozen, and at a crossfade's first house sample the incoming feed begins from the outgoing feed's ratio, or
from its own nominal ratio if it is paced (R69 to R71, R88). The leader is then the feed last heard (R105; log 26). A
house sample event of RUNNING, step by step: the clock's count and both feeds' pace states, the ratio that a crossfade
inherits, both feeds' values, an underrun of the leader, the advance, the flag that a rise withdraws, the slots and
notices of the failed reads, the transition's count, the ends, the ramps, and the outputs from the program inputs as
they stood before the advance; last, whether it is a block event (R8, R9, R26, R28, R55, R69, R80, R89, R91, R98, R103,
R125). The order of the notices is the model's (log 20), and so are that the pace states come before the advance (log
11), the marking of slots after the reads that are not late (log 10), the flag after the advance (log 22) and the
leader's end before a transition's own (log 50). So is that the transition's count n keeps its value while a crossfade
is abandoned, where j counts in its place (log 16). -/
def Obligations.ReadPositions : Prop :=
  (∀ v : Resampler, v.i < 2 ^ 40 → v.phi < 2 ^ 28 →
     (v.held = false → v.i * 2 ^ 28 + v.phi + v.r < 2 ^ 68 →
       v.advanced.i * 2 ^ 28 + v.advanced.phi = v.i * 2 ^ 28 + v.phi + v.r ∧ v.advanced.held = false) ∧
     (v.held = false → 2 ^ 68 ≤ v.i * 2 ^ 28 + v.phi + v.r →
       v.advanced.i = 2 ^ 40 - 1 ∧ v.advanced.phi = 0 ∧ v.advanced.held = true) ∧
     (v.held = true → v.advanced = v) ∧ v.advanced.i < 2 ^ 40 ∧ v.advanced.phi < 2 ^ 28 ∧
     (v.advanced.r, v.advanced.acc, v.advanced.rNom) = (v.r, v.acc, v.rNom)) ∧
  (∀ (s t : State) (reads : SampleReads), s.resetLine = false → s.clock.phase = .running →
     t = houseSample reads s →
     (∀ x, (s.sel.state = .onair x ∨ s.sel.state = .rise x ∨ s.sel.state = .fade x ∨
         s.sel.state = .xfade x.other ∧ s.sel.formed ≠ 0) →
       t.sel.lastHeard = some x ∧ (t.sel.pos, t.sel.phase) = ((s.feed x).rs.advanced.i, (s.feed x).rs.advanced.phi) ∧
       ((t.feed x).rs.i, (t.feed x).rs.phi) = (t.sel.pos, t.sel.phase) ∧ (t.feed x).rs.r = (s.feed x).rs.r ∧
       ((s.feed x.other).isRead = true →
         ((t.feed x.other).rs.i, (t.feed x.other).rs.phi) = (t.sel.pos, t.sel.phase) ∧
         (t.feed x.other).rs.r = (s.feed x.other).rs.r ∧ (t.feed x.other).rs.acc = (s.feed x.other).rs.acc) ∧
       ((s.feed x.other).isRead = false →
         ((t.feed x.other).rs.i, (t.feed x.other).rs.phi) = ((s.feed x.other).rs.i, (s.feed x.other).rs.phi))) ∧
     (s.sel.state = .silent →
       (t.sel.pos, t.sel.phase) = (s.sel.pos, s.sel.phase) ∧ t.sel.lastHeard = s.sel.lastHeard ∧
       ∀ x, (s.feed x).isRead = true → ((t.feed x).rs.i, (t.feed x).rs.phi) = (s.sel.pos, s.sel.phase)) ∧
     (∀ x, s.sel.state = .xfade x → s.sel.formed = 0 →
       ((s.feed x.other).setup.mode = .streaming →
         (t.feed x.other).rs.r = (s.feed x).rs.r ∧ (t.feed x.other).rs.acc = (s.feed x).rs.acc) ∧
       ((s.feed x.other).setup.mode ≠ .streaming →
         (t.feed x.other).rs.r = (s.feed x.other).rs.rNom ∧ (t.feed x.other).rs.acc = 0) ∧
       (t.sel.pos, t.sel.phase) = ((t.feed x.other).rs.i, (t.feed x.other).rs.phi))) ∧
  (∀ (s t u v w z : State) (reads : SampleReads) (va vb : List ReadResult), s.resetLine = false →
     s.clock.phase = .running →
     t = { s with
       clock := s.clock.sampled, feedA := s.feedA.paceSample false, feedB := s.feedB.paceSample false } →
     u = inheritRatio t → va = u.feedValues reads .a → vb = u.feedValues reads .b →
     v = (va.flatMap Prod.snd ++ vb.flatMap Prod.snd).foldl (fun p e => markFail e p)
       (riseUnaligns (advancePositions (noteUnderrun u))) →
     w = { v with sel := { v.sel with
       n := if v.sel.state.inTransition = true ∧ v.sel.abandoned = false then v.sel.n + 1 else v.sel.n
       j := if v.sel.state.inTransition = true ∧ v.sel.abandoned = true then v.sel.j + 1 else v.sel.j
       lastHeard := match v.sel.state.leader with | some x => some x | none => v.sel.lastHeard } } →
     z = takeEnds w →
     houseSample reads s = markBlock (outputStage reads.passing (u.programInputs va vb)
       { z with scene := { z.scene with active := z.scene.active.map ActiveRoute.advanced } }))

/-- The interpolation and the half-band sum as formulas, each shift a floor; exact on a straight line of samples but for
the floor of the last shift, exact at phase 0, and never outside 24 bits (R69, R82, R83). The value of a channel: the
interpolation of the frames i - 1, i, i + 1 and i + 2 at u = φ >> 12, at base 2 of their half-band values, with the
failed reads in the order of the points (R81, R83); a feed that is read gives one value for each of its channels, and
any other feed none (R84). The 96 program inputs: 0 in SILENT and at or above the leader's channel count, and else what
the selector's state makes of the two feeds' values (R84, R88, R90). The program input of a channel by the selector's
state, and that no input leaves the 24-bit range (R90, R98). -/
def Obligations.SignalPath : Prop :=
  ((∀ (p d : Int) (u : Nat), u < 65536 → -8388608 ≤ p + d * u / 65536 → p + d * u / 65536 ≤ 8388607 →
     cubic (p - d) p (p + d) (p + 2 * d) u = p + d * u / 65536) ∧
   (∀ p0 p1 p2 p3 : Int, -8388608 ≤ p1 → p1 ≤ 8388607 → cubic p0 p1 p2 p3 0 = p1) ∧
   (∀ (p0 p1 p2 p3 : Int) (u : Nat), -8388608 ≤ cubic p0 p1 p2 p3 u ∧ cubic p0 p1 p2 p3 u ≤ 8388607) ∧
   (∀ p : Int, -8388608 ≤ p → p ≤ 8388607 → halfBand p p p p p = p ∧ halfBand 0 0 p 0 0 = p / 2) ∧
   (∀ (p0 p1 p2 p3 : Int) (u : Nat), cubic p0 p1 p2 p3 u =
     max (-8388608) (min 8388607 (p1 +
       ((((p3 - p0 + 3 * (p1 - p2)) * u / 65536 + (2 * p0 - 5 * p1 + 4 * p2 - p3)) * u / 65536 + (p2 - p0)) * u /
         131072)))) ∧
   (∀ m3 m1 x p1 p3 : Int,
     halfBand m3 m1 x p1 p3 = max (-8388608) (min 8388607 ((-m3 + 9 * m1 + 16 * x + 9 * p1 - p3) / 32)))) ∧
  (∀ (s : State) (reads : SampleReads) (x : Side) (c i u : Nat) (read : Nat → Int → ReadResult) (value : ReadResult),
     (s.feed x).isRead = true → c < (s.feed x).setup.n → i = (s.feed x).rs.i → u = (s.feed x).rs.phi / 4096 →
     (∀ tap t, read tap t = s.ringRead reads.passing (s.readsMade reads) { feed := x, channel := c, tap := tap } t) →
     (s.feedValues reads x)[c]? = some value →
     ((s.feed x).setup.rate = .k48 ∨ s.clock.rateClass = .k96 →
       value = (cubic (read 0 (i - 1)).1 (read 5 i).1 (read 10 (i + 1)).1 (read 15 (i + 2)).1 u,
         (read 0 (i - 1)).2 ++ (read 5 i).2 ++ (read 10 (i + 1)).2 ++ (read 15 (i + 2)).2)) ∧
     ((s.feed x).setup.rate = .k96 → s.clock.rateClass = .k48 → ∀ h : Nat → Int,
       (∀ k : Nat, h k = halfBand (read (5 * k) (i - 4 + k)).1 (read (5 * k + 1) (i - 2 + k)).1
         (read (5 * k + 2) (i - 1 + k)).1 (read (5 * k + 3) (i + k)).1 (read (5 * k + 4) (i + 2 + k)).1) →
       value = (cubic (h 0) (h 1) (h 2) (h 3) u,
         (List.range 4).flatMap fun k =>
           (read (5 * k) (i - 4 + k)).2 ++ (read (5 * k + 1) (i - 2 + k)).2 ++ (read (5 * k + 2) (i - 1 + k)).2 ++
             (read (5 * k + 3) (i + k)).2 ++ (read (5 * k + 4) (i + 2 + k)).2))) ∧
  (∀ (s : State) (reads : SampleReads) (x : Side),
     (s.feedValues reads x).length = if (s.feed x).isRead then (s.feed x).setup.n else 0) ∧
  (∀ (s : State) (va vb : List ReadResult) (x : Side) (c : Nat), c < 96 →
     (s.programInputs va vb).length = 96 ∧
     (s.sel.state = .silent → (s.programInputs va vb)[c]? = some 0) ∧
     (s.sel.state = .onair x ∨ s.sel.state = .rise x ∨ s.sel.state = .fade x ∨ s.sel.state = .xfade x.other →
       (s.programInputs va vb)[c]? =
         some (if c < (s.feed x).setup.n then s.sel.input (va.getD c (0, [])).1 (vb.getD c (0, [])).1 else 0))) ∧
  (∀ (v : Selector) (x : Side) (va vb vx vy : Int), vx = (match x with | .a => va | .b => vb) →
     vy = (match x with | .a => vb | .b => va) → -8388608 ≤ va → va ≤ 8388607 → -8388608 ≤ vb → vb ≤ 8388607 →
     v.n ≤ 2 ^ v.kx → v.n0 < 2 ^ v.kx → v.n0 + v.j ≤ 2 ^ v.kx →
     (-8388608 ≤ v.input va vb ∧ v.input va vb ≤ 8388607) ∧ (v.state = .silent → v.input va vb = 0) ∧
     (v.state = .onair x → v.input va vb = vx) ∧
     (v.state = .rise x → v.input va vb = vx * v.n / 2 ^ v.kx) ∧
     (v.state = .fade x → v.input va vb = vx * (2 ^ v.kx - v.n) / 2 ^ v.kx) ∧
     (v.state = .xfade x → v.abandoned = false →
       v.input va vb = ((2 ^ v.kx - v.n) * vx + v.n * vy) / 2 ^ v.kx) ∧
     (v.state = .xfade x → v.abandoned = true →
       v.input va vb =
         ((2 ^ v.kx - v.n0 - v.j) * vx + ((v.n0 * (2 ^ v.kx - v.n0 - v.j) / (2 ^ v.kx - v.n0) : Nat) : Int) * vy) /
           2 ^ v.kx))

/-- A frame as a feed reads it: 0 outside the program, below S too; its own sample when it is present and the word
answers; 0, a failed read, where it does not; and where it is absent, the other feed's sample if PATCH allows it and
that word answers, a failed read of the other ring where it does not, else 0 (R41, R42, R75 to R78). The frame that
SLIP names is the lowest one of the read window that has not arrived, one within the program and not present that lies
at or beyond the head or in a FILLING slot (R75, R80, R81); that the window is read in rising order is the model's
reading (log 21). The reads of a house sample: one that is not late finds every slot as it stands before them; a late
one is made after those and after the late ones named before it, and finds DAMAGED the slots that these marked for
another feed or channel, while reads for its own channel each stand on their own check (R78, R79). Which reads come
late is the command's to say, and that the others come before every marking is the model's choice (log 10); that a late
one finds the other feed's frame as those reads left it, for its patch too, and that no placement falls among the
reads, is its reading (log 30). Failed ring reads and underruns of a house sample: a failed read marks its slot DAMAGED
and raises MEMFAULT; the leader's first read of a frame not arrived in a block interval raises SLIP, unless its lanes
are ABSENT (R42, R80). -/
def Obligations.FrameReads : Prop :=
  ∀ (inside present away : Feed → Int → Prop),
  (∀ f t, inside f t ↔ (f.startPos : Int) ≤ t ∧ (f.count = 0 ∨ t < (f.startPos : Int) + f.count) ∧
    (∀ e, f.sourceEnd = some e → t ≤ (e : Int)) ∧ t < 2 ^ 40) →
  (∀ f t, present f t ↔ inside f t ∧ (f.slotAt t.toNat).stamp = some (32 * (t.toNat / 32)) ∧
    (f.slotAt t.toNat).state = .good) →
  (∀ f t, away f t ↔ inside f t ∧ ¬ present f t ∧ ((f.h : Int) ≤ t ∨
    (f.slotAt t.toNat).stamp = some (32 * (t.toNat / 32)) ∧ (f.slotAt t.toNat).state = .filling)) →
  (∀ (s : State) (passing : List Access) (x : Side) (c tap : Nat) (t : Int) (f g : Feed) (w : Side → MemWord)
     (fault : Bool → Access) (gone : Side → Prop), f = s.feed x → g = s.feed x.other →
     (∀ z, w z = s.mem.read (s.ringAddr z c t.toNat)) →
     (∀ again, fault again = { reader := .feed x, index := c, tap := tap, reread := again }) →
     (∀ z, gone z ↔ (w z).good = false ∨ ∀ again, fault again ∈ passing) →
     (¬ inside f t → s.readFrame passing x c tap t = (0, [])) ∧
     (present f t → ¬ gone x → s.readFrame passing x c tap t = ((w x).sample.toInt, [])) ∧
     (present f t → gone x →
       s.readFrame passing x c tap t = (0, [{ ring := x, channel := c, frame := t.toNat }])) ∧
     (inside f t → ¬ present f t → (s.sel.patch = false ∨ (f.role ≠ .leader ∧ f.role ≠ .outgoing) ∨ g.isRead = false ∨
         f.rs.rNom ≠ g.rs.rNom ∨ f.setup.n ≠ g.setup.n ∨ ¬ present g t) →
       s.readFrame passing x c tap t = (0, [])) ∧
     (inside f t → ¬ present f t → s.sel.patch = true → (f.role = .leader ∨ f.role = .outgoing) → g.isRead = true →
       f.rs.rNom = g.rs.rNom → f.setup.n = g.setup.n → present g t →
       (¬ gone x.other → s.readFrame passing x c tap t = ((w x.other).sample.toInt, [])) ∧
       (gone x.other →
         s.readFrame passing x c tap t = (0, [{ ring := x.other, channel := c, frame := t.toNat }])))) ∧
  (∀ (s : State) (x : Side) (f : Feed) (i low high : Int), f = s.feed x → i = f.rs.i →
     (low, high) = (if f.setup.rate = .k96 ∧ s.clock.rateClass = .k48 then (i - 4, i + 5) else (i - 1, i + 2)) →
     (∀ t, s.missingFrame x = some t ↔ low ≤ t ∧ t ≤ high ∧ away f t ∧ ∀ u, low ≤ u → u < t → ¬ away f u) ∧
     (s.missingFrame x = none ↔ ∀ t, low ≤ t → t ≤ high → ¬ away f t)) ∧
  ((∀ (s : State) (reads : SampleReads) (r : RingRead), s.Reads r → r ∉ reads.late →
     s.ringRead reads.passing (s.readsMade reads) r (s.frameOf r) =
       s.readFrame reads.passing r.feed r.channel r.tap (s.frameOf r)) ∧
   (∀ (s : State) (r : RingRead), r ∈ s.feedReads r.feed ↔ s.Reads r) ∧
   (∀ (s u : State) (reads : SampleReads) (before after : List RingRead) (r : RingRead) (marked : List RingFail),
     s.Reads r → reads.late = before ++ r :: after → r ∉ before →
     marked = (((s.feedReads .a ++ s.feedReads .b).filter fun q =>
         (!reads.late.contains q || before.contains q) && (q.feed != r.feed || q.channel != r.channel)).flatMap fun q =>
       (s.ringRead reads.passing (s.readsMade reads) q (s.frameOf q)).2) →
     u = marked.foldl (fun t e => damageSlot e t) s →
     s.ringRead reads.passing (s.readsMade reads) r (s.frameOf r) =
       u.readFrame reads.passing r.feed r.channel r.tap (s.frameOf r)) ∧
   (∀ (s : State) (e : RingFail), damageSlot e s = s.setFeed e.ring ((s.feed e.ring).setSlot e.frame
     { (s.feed e.ring).slotAt e.frame with state := .damaged }))) ∧
  ((∀ (s : State) (e : RingFail), (s.feed e.ring).slotAt e.frame ≠ emptySlot →
     markFail e s = raise .memfault ([BitVec.ofNat 8 e.ring.code, BitVec.ofNat 8 e.channel] ++ be 2 (e.frame / 32 % 65536))
       (s.setFeed e.ring ((s.feed e.ring).setSlot e.frame
         { (s.feed e.ring).slotAt e.frame with state := .damaged })) ∧
     (((markFail e s).feed e.ring).slotAt e.frame).state = .damaged ∧
     (((markFail e s).feed e.ring).slotAt e.frame).stamp = ((s.feed e.ring).slotAt e.frame).stamp) ∧
   (∀ (s : State) (x : Side) (t : Int), s.sel.state.leader = some x → s.missingFrame x = some t →
     ((s.feed x).isRead = true → (s.feed x).rs.underrun = false → (s.feed x).watch.absent = false →
       noteUnderrun s = raise .slip ([BitVec.ofNat 8 x.code, 1] ++ be 2 (t.toNat / 32 % 65536))
         (s.setFeed x { s.feed x with rs := { (s.feed x).rs with underrun := true } })) ∧
     ((s.feed x).rs.underrun = true ∨ (s.feed x).watch.absent = true → noteUnderrun s = s)) ∧
   (∀ s : State, (s.sel.state = .silent ∨ ∃ x, s.sel.state.leader = some x ∧ s.missingFrame x = none) →
     noteUnderrun s = s))

/-! ## The selector -/

/-- TRANSITION_END: what each transition's end leaves, and that nothing happens before it (R89, R96 to R98, R105). Its
last house sample has been formed (`over`) exactly when n has reached 2^kx, or n0 + j where the crossfade is abandoned
(R89, R98). At a crossfade's end an ENDING outgoing feed completes with its ending reason, a RUNNING one that stands
past its last needed frame with its own end's reason, and any other becomes STANDBY, not aligned; an abandoned
crossfade completes the incoming feed with its ending reason too and ends in SILENT (R55, R56, R89, R98). Each
completion writes its record and raises FEEDDONE, and each end in SILENT raises SILENCE (R57, R105). The counts n, n0
and j of 0 after a transition are the model's choice (log 16), and so are that a standby which a crossfade leaves at a
due block event is judged at the next one (`fresh`, log 29), and that of the two feeds of an abandoned crossfade the
outgoing one's FEEDDONE comes last (log 20). -/
def Obligations.TransitionEnd : Prop :=
  (∀ s : State, Selector.CountsOk s →
    (s.sel.over = true ↔
      (∃ x, s.sel.state = .rise x ∨ s.sel.state = .fade x ∨ s.sel.state = .xfade x) ∧
        if s.sel.abandoned then s.sel.n0 + s.sel.j = 2 ^ s.sel.kx else s.sel.n = 2 ^ s.sel.kx)) ∧
  ∀ (past : Feed → Prop) (own : Feed → Reason) (done : Feed → Reason → Feed)
    (told : Side → Feed → Reason → State → State) (rest : Selector → SelState → Selector),
  (∀ f, past f ↔ ∃ e, f.lastNeeded = some e ∧ e < f.rs.i) →
  (∀ f, own f =
    if f.count ≠ 0 ∧ f.lastNeeded = some (f.startPos + f.count - 1) then .count else .sourceEnd) →
  (∀ f q, done f q = { f with
    st := .complete, role := .none, ending := none, completion := some { reason := q, final := f.rs.i }
    pace := ⟨false, false, false, 0, ⟨false, false⟩, ⟨false, false⟩, false⟩ }) →
  (∀ z f q s, told z f q s = raise .feeddone
    ([BitVec.ofNat 8 z.code, match q with | .count => 1 | .sourceEnd => 2 | .stopped => 3 | .laneLost => 4] ++
      be 2 (f.rs.i % 65536)) s) →
  (∀ v st, rest v st = { v with state := st, n := 0, abandoned := false, n0 := 0, j := 0, cold := none }) →
  ∀ (s : State) (x y : Side) (f g : Feed), s.resetLine = false → y = x.other → f = s.feed x → g = s.feed y →
    (s.sel.over = false → exec .transitionEnd s = .next s) ∧
    (s.sel.over = true →
      (s.sel.state = .rise x → exec .transitionEnd s = .next { s with sel := rest s.sel (.onair x) }) ∧
      (s.sel.state = .xfade x → s.sel.abandoned = false → f.st = .running → ¬ past f →
        exec .transitionEnd s = .next { s.setFeed x { f with role := .standby } with
          sel := { rest s.sel (.onair y) with aligned := false, fresh := s.blockDue } }) ∧
      (∀ q, s.sel.state = .xfade x → s.sel.abandoned = false →
        (f.st = .ending ∧ f.ending = some q ∨ f.st = .running ∧ past f ∧ q = own f) →
        exec .transitionEnd s = .next (told x f q { s.setFeed x (done f q) with
          sel := { rest s.sel (.onair y) with aligned := s.sel.aligned && !f.isStandby } })) ∧
      (∀ p, s.sel.state = .xfade x → s.sel.abandoned = true → g.st = .ending → g.ending = some p →
        (f.st = .running → ¬ past f →
          exec .transitionEnd s = .next (raise .silence ([BitVec.ofNat 8 y.code, 3] ++ be 2 (s.sel.pos % 65536))
            (told y g p { (s.setFeed y (done g p)).setFeed x { f with role := .standby } with
              sel := { rest s.sel .silent with aligned := false, fresh := s.blockDue } }))) ∧
        (∀ q, (f.st = .ending ∧ f.ending = some q ∨ f.st = .running ∧ past f ∧ q = own f) →
          exec .transitionEnd s = .next (raise .silence ([BitVec.ofNat 8 y.code, 3] ++ be 2 (s.sel.pos % 65536))
            (told x f q (told y g p { (s.setFeed y (done g p)).setFeed x (done f q) with
              sel := { rest s.sel .silent with aligned := s.sel.aligned && !f.isStandby } }))))) ∧
      (∀ q, s.sel.state = .fade x → s.sel.cold = none → f.st = .ending → f.ending = some q →
        exec .transitionEnd s = .next (raise .silence
          ([BitVec.ofNat 8 x.code,
            match s.sel.fadeCause with | .loss => 0 | .stop => 1 | .fadeBack => 2 | .abandon => 3 | .ended => 4] ++
            be 2 (s.sel.pos % 65536))
          (told x f q { s.setFeed x (done f q) with sel := rest s.sel .silent }))) ∧
      (∀ q, s.sel.state = .fade x → s.sel.cold = some y → f.st = .ending → f.ending = some q →
        exec .transitionEnd s = .next (told x f q
          { (s.setFeed x (done f q)).setFeed y { g with
              role := .leader
              rs := { g.rs with
                i := if g.h < g.startPos + 2 ^ g.setup.dExp / 2 then g.startPos else g.h - 2 ^ g.setup.dExp / 2
                phi := 0, held := false, r := g.rs.rNom, acc := 0 } } with
            sel := { rest s.sel (.rise y) with kx := s.sel.policyKx, aligned := false } })))

/-- ONAIR waits, and the steps that it takes at its block event, when every command that reached the selector before it
has been taken (R100, R101). That an ONAIR which reaches the selector while a block event is due is due at once is the
model's choice (log 4), and so is that a refusal and NOTHING carry no data (log 36), and n0 and j at 0 where a
crossfade or a rise begins (log 16). -/
def Obligations.OnAir : Prop :=
  (∀ (s : State) (addr : BitVec 7) (feed : Byte), s.Serves addr .system →
    exec (.onair addr [feed]) s = .next
      { caughtUp s with
        bus := s.bus.handedOver .system 0x45
        sel := { (caughtUp s).sel with
          awaiting := (caughtUp s).sel.awaiting ++ [{ order := .onair feed, due := s.blockDue }] } }) ∧
  (∀ s : State, (∀ b rest, s.sel.awaiting ≠ { order := .onair b, due := true } :: rest) →
    exec .onairTake s = .next s) ∧
  ∀ (s u : State) (b code : Byte) (rest : List Awaiting), s.resetLine = false → s.sel.over = false →
    s.sel.awaiting = { order := .onair b, due := true } :: rest → s.bus.slots.get .system = .executing code →
    u = { s with sel := { s.sel with awaiting := rest } } →
    (1 < b.toNat → exec .onairTake s = .next (u.answered .system code .range [])) ∧
    (b.toNat ≤ 1 → s.sel.state.inTransition = true → exec .onairTake s = .next (u.answered .system code .busy [])) ∧
    ∀ x : Side, b.toNat = x.code →
      (s.sel.state = .onair x → exec .onairTake s = .next (u.answered .system code .nothing [])) ∧
      (s.sel.state = .onair x.other →
        ((s.feed x).isStandby = true → s.sel.aligned = true →
          exec .onairTake s = .next
            (((({ u with
                sel := { u.sel with
                  state := .xfade x.other, n := 0, kx := s.sel.policyKx, abandoned := false, n0 := 0, j := 0
                  cold := none, aligned := false } }).setFeed x.other
                { s.feed x.other with role := .outgoing }).setFeed x { s.feed x with role := .leader }).answered .system
              code .ok [if x = Side.a then 4 else 3])) ∧
        ((s.feed x).isStandby = false ∨ s.sel.aligned = false →
          exec .onairTake s = .next (u.answered .system code .notAligned []))) ∧
      (s.sel.state = .silent →
        ((s.feed x).isStandby = false → exec .onairTake s = .next (u.answered .system code .notAligned [])) ∧
        ((s.feed x).isStandby = true →
          ∃ v : Resampler, exec .onairTake s = .next
            (({ u with
                sel := { u.sel with
                  state := .rise x, n := 0, kx := s.sel.policyKx, abandoned := false, n0 := 0, j := 0, cold := none
                  aligned := false } }.setFeed x
                { s.feed x with st := .running, role := .leader, rs := v }).answered .system code .ok
              [if x = Side.a then 7 else 8]) ∧
            (s.sel.aligned = true → v = (s.feed x).rs) ∧
            (s.sel.aligned = false → v = { (s.feed x).rs with
              i := if (s.feed x).h < (s.feed x).startPos + 2 ^ (s.feed x).setup.dExp / 2 then (s.feed x).startPos
                else (s.feed x).h - 2 ^ (s.feed x).setup.dExp / 2
              phi := 0, held := false, r := (s.feed x).rs.rNom, acc := 0 })))

/-- The answer to the offers of PRIMED feeds, by the selector's state (R53, R70, R92). A slaved feed takes position and
phase alone; `held` is the model's own (log 17). The judgement of alignment at a block event, with ALIGN raised when it
changes, and at a rise's first house sample, where the standby's flag becomes not aligned (R91; that ALIGN then gives
the position after that house sample's advance is the model's reading, log 22). Two more points are the model's
reading: a feed that became the standby at the block event's own house sample is judged at the next block event
(`fresh`, log 29), and at positions 0 to 3 the window names a block below 0, so the standby is not aligned (log 43). -/
def Obligations.StandbyJudged : Prop :=
  (∀ (s : State) (x y : Side), y = x.other → (s.feed x).st = .primed →
     (s.sel.state = .silent → (s.feed y).st ≠ .primed ∨ s.sel.preferred = x →
       (takePrimed s).sel.state = .rise x ∧ (takePrimed s).sel.n = 0 ∧ (takePrimed s).sel.kx = s.sel.policyKx ∧
       (takePrimed s).feed x = { s.feed x with st := .running, role := .leader }) ∧
     (s.sel.state = .silent → (s.feed y).st = .primed → s.sel.preferred = y →
       (takePrimed s).feed x = { s.feed x with
         st := .running, role := .standby, rs := (s.feed x).rs.slaved s.sel.pos s.sel.phase } ∧
       (takePrimed s).sel.state = .rise y ∧ (takePrimed s).sel.aligned = false) ∧
     ((s.sel.state = .onair y ∨ s.sel.state = .rise y) →
       takePrimed s = { s.setFeed x { s.feed x with
           st := .running, role := .standby, rs := (s.feed x).rs.slaved s.sel.pos s.sel.phase } with
         sel := { s.sel with aligned := false } }) ∧
     ((∃ z, s.sel.state = .fade z ∨ s.sel.state = .xfade z) → takePrimed s = s)) ∧
  (∀ (v : Resampler) (pos phase : Nat), v.slaved pos phase =
     { v with i := pos, phi := phase, held := v.held && decide (pos = 2 ^ 40 - 1 ∧ phase = 0) }) ∧
  (∀ (s : State) (y : Side) (v : Bool), s.standby = some y → s.sel.fresh = false →
     (v = true ↔ 4 ≤ s.sel.pos ∧
       (∀ l, s.sel.state.leader = some l → (s.feed y).rs.rNom = (s.feed l).rs.rNom ∧
         (s.feed y).setup.n = (s.feed l).setup.n) ∧
       ∀ b, (s.sel.pos - 4) / 32 ≤ b → b ≤ (s.sel.pos + 64) / 32 →
         ((s.feed y).slotAt (32 * b)).stamp = some (32 * b) ∧ ((s.feed y).slotAt (32 * b)).state = .good) →
     judgeAlignment s =
       if v = s.sel.aligned then s
       else raise .align ([BitVec.ofNat 8 y.code, if v then 1 else 0] ++ be 2 (s.sel.pos % 65536))
         { s with sel := { s.sel with aligned := v } }) ∧
  (∀ s : State, s.sel.fresh = true ∨ s.standby = none →
     judgeAlignment s = { s with sel := { s.sel with fresh := false } }) ∧
  (∀ (s : State) (x y : Side), y = x.other →
     (s.sel.state = .rise x → s.sel.n = 0 → (s.feed y).isStandby = true →
       riseUnaligns s =
         if s.sel.aligned = false then s
         else raise .align ([BitVec.ofNat 8 y.code, 0] ++ be 2 (s.sel.pos % 65536))
           { s with sel := { s.sel with aligned := false } }) ∧
     ((∀ z, s.sel.state ≠ .rise z) ∨ s.sel.state = .rise x ∧ (s.sel.n ≠ 0 ∨ (s.feed y).isStandby = false) →
       riseUnaligns s = s))

/-- The ends of a house sample. The last needed frame of a feed (R24). A leader that has passed it completes, RUNNING
with the end's reason or ENDING with its own, and every other feed that is read completes with it, a RUNNING one with
the leader's reason and an ENDING one with its own; the selector is SILENT at once, whatever its state, with no cold
flag and no abandon mark, FEEDDONE is raised for each and SILENCE with the cause "end" (R55, R57, R103, R105). A
standby at its own end completes alone with its own end's reason: FEEDDONE is raised, a cold flag that names it is
cleared, and the selector goes on (R55, R103). Before that nothing happens. Four points are the model's choice: that a
RUNNING other feed takes the leader's reason also where it stands past its own end (log 49), that the leader's end
comes first at a transition's last house sample (log 50), that the leader's FEEDDONE comes before the other feed's (log
20), and that n, n0 and j are 0 in SILENT (log 16). -/
def Obligations.ProgramEnds : Prop :=
  (∀ f : Feed, f.lastNeeded = match f.sourceEnd, f.count with
    | none, 0 => none
    | some e, 0 => some e
    | none, n + 1 => some (f.startPos + n)
    | some e, n + 1 => some (min e (f.startPos + n))) ∧
  ∀ (past : Feed → Prop) (own : Feed → Reason) (done : Feed → Reason → Feed)
    (told : Side → Feed → Reason → State → State),
  (∀ f, past f ↔ ∃ e, f.lastNeeded = some e ∧ e < f.rs.i) →
  (∀ f, own f =
    if f.count ≠ 0 ∧ f.lastNeeded = some (f.startPos + f.count - 1) then .count else .sourceEnd) →
  (∀ f q, done f q = { f with
    st := .complete, role := .none, ending := none, completion := some { reason := q, final := f.rs.i }
    pace := ⟨false, false, false, 0, ⟨false, false⟩, ⟨false, false⟩, false⟩ }) →
  (∀ z f q s, told z f q s = raise .feeddone
    ([BitVec.ofNat 8 z.code, match q with | .count => 1 | .sourceEnd => 2 | .stopped => 3 | .laneLost => 4] ++
      be 2 (f.rs.i % 65536)) s) →
  ∀ (s : State) (x y : Side) (f g : Feed), y = x.other → f = s.feed x → g = s.feed y →
    (∀ (q p : Reason) (t : State), s.sel.state.leader = some x → past f →
      (f.st = .running ∧ q = own f ∨ f.st = .ending ∧ f.ending = some q) →
      (g.st = .running ∧ p = q ∨ g.st = .ending ∧ g.ending = some p ∨ g.isRead = false) →
      t = { (s.setFeed x (done f q)).setFeed y (if g.isRead then done g p else g) with
        sel := { s.sel with
          state := .silent, n := 0, abandoned := false, n0 := 0, j := 0, cold := none
          aligned := s.sel.aligned && !f.isStandby && !g.isStandby } } →
      takeEnds s = raise .silence ([BitVec.ofNat 8 x.code, 4] ++ be 2 (s.sel.pos % 65536))
        (if g.isRead then told y g p (told x f q t) else told x f q t)) ∧
    (s.sel.state.leader = some x ∧ ¬ past f ∨ s.sel.state.leader = none ∧ f.isStandby = false →
      (g.isStandby = true → past g →
        takeEnds s = told y g (own g) { s.setFeed y (done g (own g)) with
          sel := { s.sel with aligned := false, cold := if s.sel.cold = some y then none else s.sel.cold } }) ∧
      (g.isStandby = false ∨ ¬ past g → takeEnds s = s))

/-! ## Scenes -/

/-- SCNOPEN and the copy (R112, R113). That a copy or a take which is asked for while a block event is due is due at
once is the model's choice (log 4), and that a mode of no meaning is refused RANGE in every scene state is its reading
of R112 (log 63). SCNTAKE waits for a block event if the bank is SEALED, and is answered NOTHING at once if not (R119).
TAKE with no sealed bank, or with no take awaited (R119). -/
def Obligations.SceneWaits : Prop :=
  ((∀ (s : State) (addr : BitVec 7) (mode : Byte), s.Serves addr .render →
     (1 < mode.toNat → exec (.scnopen addr [mode]) s = .next ((caughtUp s).answered .render 0x20 .range [])) ∧
     (mode.toNat ≤ 1 → s.scene.state ≠ .free →
       exec (.scnopen addr [mode]) s = .next ((caughtUp s).answered .render 0x20 .busy [])) ∧
     (mode = 0 → s.scene.state = .free →
       exec (.scnopen addr [mode]) s = .next
         ({ caughtUp s with
             scene := { s.scene with state := .building, pendingBank := [], copy := .none } }.answered
           .render 0x20 .ok [0, 0])) ∧
     (mode = 1 → s.scene.state = .free →
       exec (.scnopen addr [mode]) s = .next
         { caughtUp s with
           bus := s.bus.handedOver .render 0x20
           scene := { s.scene with
             state := .building, pendingBank := [], copy := if s.blockDue then .due else .waiting } })) ∧
   (∀ (s : State) (code : Byte), s.resetLine = false → s.scene.copy = .due → s.scene.state = .building →
     s.bus.slots.get .render = .executing code →
     exec .sceneCopy s = .next
       ({ s with
           scene := { s.scene with
             pendingBank := (s.scene.active.filter fun e : ActiveRoute => !e.releasing).map fun e : ActiveRoute =>
               ⟨e.input, e.output, e.target, e.k⟩
             copy := .none } }.answered .render code .ok
         (be 2 (s.scene.active.filter fun e : ActiveRoute => !e.releasing).length))) ∧
   (∀ s : State, s.scene.copy ≠ .due → exec .sceneCopy s = .next s)) ∧
  (∀ (s : State) (addr : BitVec 7), s.Serves addr .render →
     (∀ kr, s.scene.state = .sealed kr →
       exec (.scntake addr []) s = .next
         { caughtUp s with
           bus := s.bus.handedOver .render 0x25
           scene := { s.scene with take := if s.blockDue then .due else .waiting } }) ∧
     ((∀ kr, s.scene.state ≠ .sealed kr) →
       exec (.scntake addr []) s = .next ((caughtUp s).answered .render 0x25 .nothing []))) ∧
  (∀ (s : State),
     (∀ code, s.resetLine = false → s.scene.take = .due → (∀ kr, s.scene.state ≠ .sealed kr) →
       s.bus.slots.get .render = .executing code →
       exec .take s = .next
         ({ s with scene := { s.scene with take := .none } }.answered .render code .nothing [])) ∧
     (s.scene.take ≠ .due → exec .take s = .next s))

/-- ROUTESET: its refusals in order, each leaving the pending bank as it was, and its effect (R114, R115). That a bad
entry whose two fields are both at fault names its input is the model's choice (log 56). ROUTEDROP (R116); that outside
BUILDING it is refused BUSY whatever keys it names is the model's reading (log 64). -/
def Obligations.RouteEdits : Prop :=
  (∀ (s : State) (addr : BitVec 7) (es : List RouteEntry), s.Serves addr .render → (∀ e ∈ es, e.Fits) →
     es.length ≤ 40 → s.PendingOk →
     (s.scene.state ≠ .building →
       exec (.routeset addr (es.flatMap RouteEntry.bytes)) s = .next
         ((caughtUp s).answered .render 0x21 .busy [])) ∧
     (∀ k e, s.scene.state = .building → es[k]? = some e → (95 < e.input ∨ 63 < e.output) →
       (∀ d ∈ es.take k, d.input ≤ 95 ∧ d.output ≤ 63) →
       exec (.routeset addr (es.flatMap RouteEntry.bytes)) s = .next
         ((caughtUp s).answered .render 0x21 .range (be 1 k ++ [if 95 < e.input then 0 else 1]))) ∧
     (∀ fresh : Nat, s.scene.state = .building → (∀ e ∈ es, e.input ≤ 95 ∧ e.output ≤ 63) →
       fresh = ((es.map RouteEntry.key).dedup.filter fun k => !(s.scene.pendingBank.any fun e => e.key == k)).length →
       (pendingLimit s.clock.rateClass < s.scene.pendingBank.length + fresh →
         exec (.routeset addr (es.flatMap RouteEntry.bytes)) s = .next
           ((caughtUp s).answered .render 0x21 .full (be 2 s.scene.pendingBank.length ++ be 2 fresh))) ∧
       (s.scene.pendingBank.length + fresh ≤ pendingLimit s.clock.rateClass →
         ∃ bank : List RouteEntry,
           exec (.routeset addr (es.flatMap RouteEntry.bytes)) s = .next
             ({ caughtUp s with scene := { s.scene with pendingBank := bank } }.answered .render 0x21
               (if es.any (fun e : RouteEntry => 11 < e.k) then .clamped else .ok)
               (be 2 fresh ++ be 1 (es.length - fresh) ++ be 1 (es.filter fun e : RouteEntry => 11 < e.k).length ++
                 be 2 bank.length)) ∧
           bank.length = s.scene.pendingBank.length + fresh ∧ (bank.Pairwise fun x y => x.key < y.key) ∧
           ∀ key, (bank.find? fun e => e.key == key) =
             match es.reverse.find? fun e => e.key == key with
             | some e => some { e with k := min e.k 11 }
             | none => s.scene.pendingBank.find? fun e => e.key == key))) ∧
  (∀ (s : State) (addr : BitVec 7) (ks : List (Nat × Nat)), s.Serves addr .render →
     (∀ k ∈ ks, k.1 < 256 ∧ k.2 < 256) → ks.length ≤ 125 → s.PendingOk →
     (s.scene.state ≠ .building →
       exec (.routedrop addr (ks.flatMap pairBytes)) s = .next ((caughtUp s).answered .render 0x22 .busy [])) ∧
     (∀ j k, s.scene.state = .building → ks[j]? = some k → (95 < k.1 ∨ 63 < k.2) →
       (∀ d ∈ ks.take j, d.1 ≤ 95 ∧ d.2 ≤ 63) →
       exec (.routedrop addr (ks.flatMap pairBytes)) s = .next
         ((caughtUp s).answered .render 0x22 .range (be 1 j))) ∧
     (s.scene.state = .building → (∀ k ∈ ks, k.1 ≤ 95 ∧ k.2 ≤ 63) →
       ∃ bank : List RouteEntry,
         bank = (s.scene.pendingBank.filter fun e => !(ks.any fun k => e.input == k.1 && e.output == k.2)) ∧
         exec (.routedrop addr (ks.flatMap pairBytes)) s = .next
           ({ caughtUp s with scene := { s.scene with pendingBank := bank } }.answered .render 0x22 .ok
             (be 1 (s.scene.pendingBank.length - bank.length) ++
               be 1 (ks.length - (s.scene.pendingBank.length - bank.length)) ++ be 2 bank.length))))

/-- SCNSEAL, with what a sealed bank then refuses, and what taking an empty one releases: every route of the active
bank keeps its place and is released from its gain under kr, and there is no other route (R117). -/
def Obligations.ScnSeal : Prop :=
  (∀ (s : State) (addr : BitVec 7) (kr : Byte), s.Serves addr .render →
    (s.scene.state ≠ .building →
      exec (.scnseal addr [kr]) s = .next ((caughtUp s).answered .render 0x23 .busy [])) ∧
    (s.scene.state = .building →
      exec (.scnseal addr [kr]) s = .next
        ({ caughtUp s with scene := { s.scene with state := .sealed (min kr.toNat 11) } }.answered .render 0x23
          (if 11 < kr.toNat then .clamped else .ok)
          (cap16 s.scene.pendingBank.length ++ [BitVec.ofNat 8 (min kr.toNat 11)])))) ∧
  (∀ (s : State) (addr : BitVec 7) (k : Nat) (p : List Byte), s.Serves addr .render → s.scene.state = .sealed k →
    (p.length % 6 = 0 → p.length ≤ 240 →
      exec (.routeset addr p) s = .next ((caughtUp s).answered .render 0x21 .busy [])) ∧
    (p.length % 2 = 0 → p.length ≤ 250 →
      exec (.routedrop addr p) s = .next ((caughtUp s).answered .render 0x22 .busy []))) ∧
  (∀ (v : Scene) (house : Rate) (kr : Nat), v.pendingBank = [] →
    (∀ e ∈ (v.taken house kr).active, e.releasing = true ∧ e.target = 0 ∧ e.k = kr) ∧
    ((v.active.Pairwise fun d e => d.key < e.key) → v.active.length ≤ routeCapacity house →
      (v.taken house kr).active = v.active.map fun e : ActiveRoute =>
        { e with target := 0, k := kr, step := (-e.gain).tdiv (2 ^ kr), remaining := 2 ^ kr, releasing := true }))

/-- SCNDISCARD; while the render processor's SCNOPEN is in execution its frame is not taken (R118). -/
def Obligations.ScnDiscard : Prop :=
  ∀ (s : State) (addr : BitVec 7),
    (s.Serves addr .render →
      (s.scene.state = .free → exec (.scndiscard addr []) s = .next ((caughtUp s).answered .render 0x24 .nothing [])) ∧
      (s.scene.state ≠ .free →
        exec (.scndiscard addr []) s = .next
          ({ caughtUp s with scene := { s.scene with pendingBank := [], state := .free } }.answered .render 0x24 .ok
            (cap16 s.scene.pendingBank.length ++ [if s.scene.state = PendState.building then 1 else 2])))) ∧
    (s.bus.slots.get .render = .executing 0x20 → roleAt s.bus.strap addr = some .render →
      exec (.scndiscard addr []) s = .next s)

/-- TAKE of a sealed bank at its block event: the pending entries enter from the gains that their keys had, every
other route is released under kr, the quietest releases beyond the headroom are cut, the pending bank is FREE,
CUTRELEASE is raised if routes were cut, and the answer counts them; of the rest of the part it changes nothing (R119 to
R124). -/
def Obligations.Take : Prop :=
  ∀ (s : State) (code : Byte) (kr : Nat) (old cut : List ActiveRoute) (room : Nat), s.resetLine = false →
    s.scene.take = .due → s.scene.state = .sealed kr → s.bus.slots.get .render = .executing code → s.BanksOk →
    old = (s.scene.active.filter fun e : ActiveRoute =>
      !(s.scene.pendingBank.any fun p : RouteEntry => p.input == e.input && p.output == e.output)) →
    room = routeCapacity s.clock.rateClass - s.scene.pendingBank.length →
    ∃ t : State,
      exec .take s = .next (t.answered .render code .ok
        (be 1 (min s.scene.pendingBank.length 255) ++ be 1 (min (min old.length room) 255) ++
          be 1 (min (old.length - room) 255))) ∧
      t.scene.pendingBank = [] ∧ t.scene.state = .free ∧ t.scene.take = .none ∧ t.scene.cut = old.length - room ∧
      t.scene.active.length = s.scene.pendingBank.length + min old.length room ∧
      (t.scene.active.Pairwise fun d e => d.key < e.key) ∧
      (∀ p ∈ s.scene.pendingBank, ∀ g : Int,
        g = (match s.scene.active.find? fun e => e.key == p.key with | some e => e.gain | none => 0) →
        { input := p.input, output := p.output, target := p.target, k := p.k, gain := g
          step := (p.target - g).tdiv (2 ^ p.k), remaining := 2 ^ p.k, releasing := false } ∈ t.scene.active) ∧
      (cut = (old.filter fun e : ActiveRoute => !(t.scene.active.any fun d : ActiveRoute => d.key == e.key)) →
        cut.length = old.length - room ∧
        (∀ e ∈ old, e ∉ cut →
          { e with target := 0, k := kr, step := (-e.gain).tdiv (2 ^ kr), remaining := 2 ^ kr, releasing := true } ∈
            t.scene.active) ∧
        ∀ c ∈ cut, ∀ e ∈ old, e ∉ cut →
          c.gain.natAbs < e.gain.natAbs ∨ c.gain.natAbs = e.gain.natAbs ∧ c.key < e.key) ∧
      t.notices = (if room < old.length then
          raise .cutrelease (be 2 (old.length - room) ++ be 2 room) s else s).notices ∧
      t = { s with scene := t.scene, notices := t.notices }

/-- A ramp: every gain from a take to the ramp's end lies between the start gain and the target, the steps are equal,
and the last house sample lands on the target, where the route stays (R121, R122, R125). RAMP_END: the last step of
the ramp of the route named, ahead of the rest of its house sample (R125; the order is the model's choice,
log 6, and so is that nothing which is still due is taken before it, log 68). -/
def Obligations.Ramp : Prop :=
  (∀ (e : ActiveRoute) (g : Int), e.gain = g → e.step = (e.target - g).tdiv (2 ^ e.k) → e.remaining = 2 ^ e.k →
     (∀ j, j < 2 ^ e.k → (ActiveRoute.advanced^[j] e).gain = g + j * e.step ∧
       (ActiveRoute.advanced^[j] e).remaining = 2 ^ e.k - j) ∧
     (∀ j, 2 ^ e.k ≤ j → ActiveRoute.advanced^[j] e = { e with gain := e.target, remaining := 0 }) ∧
     ∀ j, min g e.target ≤ (ActiveRoute.advanced^[j] e).gain ∧ (ActiveRoute.advanced^[j] e).gain ≤ max g e.target) ∧
  (∀ (s : State) (input output : Nat), s.resetLine = false →
     exec (.rampEnd input output) s = .next
       { s with
         scene := { s.scene with
           active := s.scene.active.map fun e : ActiveRoute =>
             if e.key = output * 256 + input ∧ e.remaining = 1 then { e with gain := e.target, remaining := 0 } else e } })

/-! ## Output stage -/

/-- A house sample event of RUNNING on the output side: the ramps advance, then for each output, in its order, the mute
step, the slot value from the held sample, the end of a duck, the trimmed sum with the clip mark, the delay line's step
on that sum with the delay then in force, and the sum of the routes' gains and program inputs kept for the next house
sample; CLIP names the lowest output that saturated and the number of them, and MEMFAULT the failed read of a delay
line (R40, R41, R43, R125, R129, R133, R134, R136, R139, R148). That the MEMFAULT record shows the last delay line that
failed, also where ring reads fail at the same house sample or several lines do, is the model's order of notices (log
20). A house sample event of STARTING: every ramp of the active bank advances and every output takes its mute step;
every slot carries 0; the program, the held samples, the delay lines, sample memory and the feeds do not act (R12,
R125, R139). An output whose mute step of this house sample DUCK_END has taken takes no second one, and every other
step as the others do (the model's choice, log 6). -/
def Obligations.OutputSamples : Prop :=
  (∀ (s t : State) (reads : SampleReads), s.resetLine = false → s.clock.phase = .running →
     t = houseSample reads s →
     t.outs.length = s.outs.length ∧ t.slots.length = s.outs.length ∧
     t.scene.active = s.scene.active.map (fun e : ActiveRoute =>
       if e.remaining = 0 then e
       else if e.remaining = 1 then { e with remaining := 0, gain := e.target }
       else { e with remaining := e.remaining - 1, gain := e.gain + e.step }) ∧
     ∃ inputs : List Int,
       (∃ u, inputs = State.programInputs u (u.feedValues reads .a) (u.feedValues reads .b) ∧
         u.clock.rateClass = s.clock.rateClass ∧
         u = inheritRatio { s with
           clock := u.clock, feedA := s.feedA.paceSample false, feedB := s.feedB.paceSample false }) ∧
       ∀ (k : Nat) (o : OutRec) (target m : Nat) (sum trim : Int), s.outs[k]? = some o →
         target = (if o.ownMute = true ∨ o.mask &&& s.groups ≠ 0 ∨ s.gcMute = true ∨ s.muteAccepted = true ∨
           o.pendingDelay ≠ none then 0 else 4194304) →
         m = (if o.stepTaken then o.m
           else if o.m < target then o.m + 65536 else if target < o.m then o.m - 65536 else o.m) →
         sum = (((t.scene.active.filter fun e : ActiveRoute => e.output == k).map fun e : ActiveRoute =>
           e.gain * inputs.getD e.input 0).sum + 2097152) >>> 22 →
         trim = (o.heldSum * o.trim + 2097152) >>> 22 →
         t.slots[k]? = some ((o.heldDelayed * m) >>> 22) ∧
         ∃ p, t.outs[k]? = some p ∧ p.m = m ∧
           (p.trim, p.ownMute, p.mask, p.stepTaken) = (o.trim, o.ownMute, o.mask, false) ∧
           (∀ d, o.pendingDelay = some d → m = 0 → p.delay = d ∧ p.pendingDelay = none) ∧
           (o.pendingDelay = none ∨ m ≠ 0 → p.delay = o.delay ∧ p.pendingDelay = o.pendingDelay) ∧
           p.heldSum = max (-8388608) (min 8388607 sum) ∧
           p.heldClipped = decide (sum < -8388608 ∨ 8388607 < sum) ∧
           p.clip = (o.clip || o.heldClipped || decide (trim < -8388608 ∨ 8388607 < trim))) ∧
  (∀ (s t : State) (reads : SampleReads) (trimmed : OutRec → Int) (sat : OutRec → Bool), s.resetLine = false →
     s.clock.phase = .running → t = houseSample reads s →
     (∀ o : OutRec, trimmed o = (o.heldSum * o.trim + 2097152) >>> 22) →
     (∀ o : OutRec, sat o = decide (trimmed o < -8388608 ∨ 8388607 < trimmed o)) →
     ∃ (mems : Nat → Memory) (line : Nat → LineStep), mems 0 = s.mem ∧ t.mem = mems s.outs.length ∧
       (∀ (k : Nat) (o p : OutRec), s.outs[k]? = some o → t.outs[k]? = some p →
         line k = lineStep reads.passing (delayCapacity s.pagesD)
           ((1024 - s.pagesD) * 1024 + k * delayCapacity s.pagesD) k p.delay o.writeIdx o.valid
           (max (-8388608) (min 8388607 (trimmed o))) (mems k) ∧
         mems (k + 1) = (line k).mem ∧
         (p.heldDelayed, p.writeIdx, p.valid) = ((line k).out, (line k).writeIdx, (line k).valid)) ∧
       (∀ (k : Nat) (o : OutRec) (r : Role), s.outs[k]? = some o → (o.heldClipped || sat o) = true →
         (∀ (j : Nat) (d : OutRec), j < k → s.outs[j]? = some d → (d.heldClipped || sat d) = false) →
         s.notices.routing.getD 12 none = some r →
         ∃ v ∈ t.notices.queues.get r, v.kind = .clip ∧
           v.detail = [BitVec.ofNat 8 k,
             (if o.heldClipped then 1 else 0) + (if sat o then 2 else 0),
             BitVec.ofNat 8 (min (s.outs.filter fun d => d.heldClipped || sat d).length 255), 0]) ∧
       ∀ (k w : Nat) (r : Role), k < s.outs.length → (line k).failed = some w →
         (∀ j, k < j → j < s.outs.length → (line j).failed = none) → s.notices.routing.getD 0 none = some r →
         ∃ v ∈ t.notices.queues.get r, v.kind = .memfault ∧ v.detail = [2, BitVec.ofNat 8 k] ++ be 2 (w % 65536)) ∧
  (∀ (s t : State) (reads : SampleReads), s.resetLine = false → s.clock.phase = .starting → t = houseSample reads s →
     t.mem = s.mem ∧ t.feedA = s.feedA ∧ t.feedB = s.feedB ∧ t.notices = s.notices ∧
     (t.sel.state, t.sel.n, t.sel.pos, t.sel.phase) = (s.sel.state, s.sel.n, s.sel.pos, s.sel.phase) ∧
     (∀ v ∈ t.slots, v = 0) ∧ t.slots.length = s.outs.length ∧ t.outs.length = s.outs.length ∧
     (∀ (k : Nat) (o : OutRec) (target : Nat), s.outs[k]? = some o →
       target = (if o.ownMute = true ∨ o.mask &&& s.groups ≠ 0 ∨ s.gcMute = true ∨ s.muteAccepted = true ∨
         o.pendingDelay ≠ none then 0 else 4194304) →
       t.outs[k]? = some { o with
         m := if o.stepTaken then o.m
           else if o.m < target then o.m + 65536 else if target < o.m then o.m - 65536 else o.m
         stepTaken := false }) ∧
     t.scene.active = s.scene.active.map fun e : ActiveRoute =>
       if e.remaining = 0 then e
       else if e.remaining = 1 then { e with remaining := 0, gain := e.target }
       else { e with remaining := e.remaining - 1, gain := e.gain + e.step })

/-- OUTSET: its refusals in order, each leaving the record as it was, what it stores, and by the delay that the output
will run with: no change, a change at once, a duck, or a new pending delay (R146 to R148; FFFFh for no pending delay is
the model's choice, log 23, and so is the lowest offset where several fields are at fault, log 57). DUCK_END: the last
mute step of a ducking output, with its delay change (R134, R148; taken ahead of the rest of its house sample, the
model's choice, log 6). An OUTSET that comes between the two changes the delay at once, since it finds m at 0 and no
pending delay (the model's choice, log 70). -/
def Obligations.Outset : Prop :=
  (∀ (s : State) (addr : BitVec 7) (k own mask : Byte) (trim delay d : Nat), s.Serves addr .system →
     trim < 2 ^ 24 → delay < 2 ^ 16 → d = min delay (maxDelay s.pagesD) →
     (63 < k.toNat →
       exec (.outset addr ([k] ++ be 3 trim ++ be 2 delay ++ [own, mask])) s = .next
         ((caughtUp s).answered .system 0x42 .range [0])) ∧
     (k.toNat ≤ 63 → 2 ^ 23 ≤ trim →
       exec (.outset addr ([k] ++ be 3 trim ++ be 2 delay ++ [own, mask])) s = .next
         ((caughtUp s).answered .system 0x42 .range [1])) ∧
     (k.toNat ≤ 63 → trim < 2 ^ 23 → 1 < own.toNat →
       exec (.outset addr ([k] ++ be 3 trim ++ be 2 delay ++ [own, mask])) s = .next
         ((caughtUp s).answered .system 0x42 .range [6])) ∧
     (∀ o, k.toNat ≤ 63 → trim < 2 ^ 23 → own.toNat ≤ 1 → s.outs[k.toNat]? = some o →
       (s.bus.lock = true → (trim ≠ o.trim ∨ d ≠ o.pendingDelay.getD o.delay) →
         exec (.outset addr ([k] ++ be 3 trim ++ be 2 delay ++ [own, mask])) s = .next
           ((caughtUp s).answered .system 0x42 .locked [])) ∧
       (s.bus.lock = false ∨ (trim = o.trim ∧ d = o.pendingDelay.getD o.delay) →
         ∃ (q : OutRec) (action : Byte),
           exec (.outset addr ([k] ++ be 3 trim ++ be 2 delay ++ [own, mask])) s = .next
             ({ caughtUp s with outs := s.outs.set k.toNat q }.answered .system 0x42
               (if delay ≤ maxDelay s.pagesD then .ok else .clamped)
               (be 3 trim ++ be 2 q.delay ++ (match q.pendingDelay with | some v => be 2 v | none => [0xFF, 0xFF]) ++
                 [own, mask] ++ be 2 d ++ [action])) ∧
           q = { o with
             trim := trim, ownMute := own == 1, mask := mask, delay := q.delay, pendingDelay := q.pendingDelay } ∧
           (d = o.pendingDelay.getD o.delay → (q.delay, q.pendingDelay, action) = (o.delay, o.pendingDelay, 0)) ∧
           (d ≠ o.delay → o.pendingDelay = none → o.m = 0 → (q.delay, q.pendingDelay, action) = (d, none, 1)) ∧
           (d ≠ o.delay → o.pendingDelay = none → o.m ≠ 0 → (q.delay, q.pendingDelay, action) = (o.delay, some d, 2)) ∧
           (∀ v, o.pendingDelay = some v → d ≠ v → (q.delay, q.pendingDelay, action) = (o.delay, some d, 3))))) ∧
  (∀ (s : State) (k : Nat) (o : OutRec), s.resetLine = false → s.clock.phase = .running → s.outs[k]? = some o →
     (∀ d, o.pendingDelay = some d → 0 < o.m → o.m ≤ 65536 → o.stepTaken = false →
       exec (.duckEnd k) s = .next
         { s with outs := s.outs.set k { o with m := 0, delay := d, pendingDelay := none, stepTaken := true } }) ∧
     (∀ d, o.pendingDelay = some d → o.m = 0 →
       exec (.duckEnd k) s = .next { s with outs := s.outs.set k { o with delay := d, pendingDelay := none } }) ∧
     ((o.pendingDelay = none ∨ 65536 < o.m) → exec (.duckEnd k) s = .next s))

/-- GROUPSET (R140, R141). The general call: 70h and 71h set the flag whoever sends them and in either phase, MUTE is
raised exactly when the house mute changes, and any other byte changes nothing (R142, R144, R166). -/
def Obligations.Mutes : Prop :=
  (∀ (s : State) (addr : BitVec 7) (g on : Byte), s.Serves addr .system →
     ((7 < g.toNat ∨ 1 < on.toNat) →
       exec (.groupset addr [g, on]) s = .next ((caughtUp s).answered .system 0x44 .range [])) ∧
     (g.toNat ≤ 7 → on.toNat ≤ 1 →
       ∃ w : Byte, exec (.groupset addr [g, on]) s = .next
         ({ caughtUp s with groups := w }.answered .system 0x44 .ok [if s.groups.getLsbD g.toNat then 1 else 0]) ∧
         ∀ i, i < 8 → w.getLsbD i = if i = g.toNat then on == 1 else s.groups.getLsbD i)) ∧
  (∀ (s : State) (rest : List Byte), s.resetLine = false →
     exec (.generalCall []) s = .next s ∧
     (∀ b : Byte, b ≠ 0x70 → b ≠ 0x71 → exec (.generalCall (b :: rest)) s = .next s) ∧
     ∀ on : Bool,
       (s.muteAccepted = true ∨ s.gcMute = on →
         exec (.generalCall ((if on then 0x71 else 0x70) :: rest)) s = .next { s with gcMute := on }) ∧
       (s.muteAccepted = false → s.gcMute ≠ on →
         exec (.generalCall ((if on then 0x71 else 0x70) :: rest)) s = .next
           (raise .mute [if on then 1 else 0, 0, if on then 1 else 0, 0] { s with gcMute := on })))

/-- A delay line, run from any write index with nothing yet valid, under delays that may change at any house sample and
with any passing faults: it gives back the sample written as many house samples before as the delay then in force says,
and 0 where there is none yet (R40, R149). Where both the read and its reread meet a passing fault it gives 0 and names
the word's offset, the line goes on as otherwise, and one passing fault alone changes nothing (R41, R43). One step of a
line in any state: the sample is written, the write index and the valid count go on, a delay that the valid count does
not cover gives 0 with no read failing, a word of bad parity fails like two passing faults, and no other word changes
(R40, R41, R43). With capacity 0 the line gives the sample back at once and keeps nothing (R40, R135). The delay
capacity: the largest power of two not above 16 × pages_D, from 16 to 16,384, or 0 with no page; the 64 lines fit the
region (R39). -/
def Obligations.DelayLine : Prop :=
  (∀ (run : Nat → LineStep) (passing : Nat → List Access) (ys : Nat → Int) (delays : Nat → Nat)
     (cap base out start : Nat) (mem : Memory) (fails : Nat → Prop), Memory.wf mem = true → 0 < cap → start < cap →
     (∀ j, delays j < cap) → (∀ j, -8388608 ≤ ys j ∧ ys j ≤ 8388607) →
     (∀ j, fails j ↔ { reader := .delay, index := out, tap := 0, reread := false } ∈ passing j ∧
       { reader := .delay, index := out, tap := 0, reread := true } ∈ passing j) →
     run 0 = lineStep (passing 0) cap base out (delays 0) start 0 (ys 0) mem →
     (∀ j, run (j + 1) =
       lineStep (passing (j + 1)) cap base out (delays (j + 1)) (run j).writeIdx (run j).valid (ys (j + 1))
         (run j).mem) →
     ∀ j, (delays j ≤ j → ¬ fails j → (run j).out = ys (j - delays j) ∧ (run j).failed = none) ∧
       (delays j ≤ j → fails j → (run j).out = 0 ∧ (run j).failed = some ((start + j - delays j) % cap)) ∧
       (j < delays j → (run j).out = 0 ∧ (run j).failed = none) ∧
       (run j).writeIdx = (start + j + 1) % cap ∧ (run j).valid = min (j + 1) cap ∧
       ∀ a, (a < base ∨ base + cap ≤ a) → (run j).mem.read a = mem.read a) ∧
  (∀ (r : LineStep) (passing : List Access) (cap base out delay w valid : Nat) (y : Int) (mem : Memory)
     (word : MemWord) (fails : Prop), Memory.wf mem = true → w < cap → delay < cap → valid ≤ cap →
     -8388608 ≤ y → y ≤ 8388607 → r = lineStep passing cap base out delay w valid y mem →
     word = (if delay = 0 then { sample := BitVec.ofInt 24 y, good := true }
       else mem.read (base + (w + cap - delay) % cap)) →
     (fails ↔ word.good = false ∨ { reader := .delay, index := out, tap := 0, reread := false } ∈ passing ∧
       { reader := .delay, index := out, tap := 0, reread := true } ∈ passing) →
     (delay < min (valid + 1) cap → ¬ fails → r.out = word.sample.toInt ∧ r.failed = none) ∧
     (delay < min (valid + 1) cap → fails → r.out = 0 ∧ r.failed = some ((w + cap - delay) % cap)) ∧
     (min (valid + 1) cap ≤ delay → r.out = 0 ∧ r.failed = none) ∧
     r.writeIdx = (w + 1) % cap ∧ r.valid = min (valid + 1) cap ∧
     r.mem.read (base + w) = { sample := BitVec.ofInt 24 y, good := true } ∧
     ∀ a, a ≠ base + w → r.mem.read a = mem.read a) ∧
  (∀ (passing : List Access) (base out delay w valid : Nat) (y : Int) (mem : Memory),
     lineStep passing 0 base out delay w valid y mem =
       { mem := mem, out := y, writeIdx := 0, valid := 0, failed := none }) ∧
  (delayCapacity 0 = 0 ∧
   ∀ d, 1 ≤ d → d ≤ 1024 → 64 * delayCapacity d ≤ d * 1024 ∧
     (∃ k, delayCapacity d = 2 ^ k ∧ 4 ≤ k ∧ k ≤ 14) ∧ 16 * d < 2 * delayCapacity d)

/-! ## Cues -/

/-- CUEPOST: its refusals in order, the late mark, and the place of the new cue (R155 to R157). CUECANCEL: the
sender's cues with the tag leave the list, and no other (R158). -/
def Obligations.CueList : Prop :=
  (∀ (s c : State) (addr : BitVec 7) (r : Role) (tag action arg : Byte) (trigger : Nat), s.Serves addr r →
     (r = .render ∨ r = .system) → c = caughtUp s → trigger < 2 ^ 40 →
     (4 < action.toNat →
       exec (.cuepost addr ([tag] ++ be 5 trigger ++ [action, arg])) s = .next (c.answered r 0x30 .range [])) ∧
     (action.toNat ≤ 4 → 32 ≤ s.cues.length →
       exec (.cuepost addr ([tag] ++ be 5 trigger ++ [action, arg])) s = .next (c.answered r 0x30 .full [])) ∧
     (action.toNat ≤ 4 → s.cues.length < 32 → s.CuesOk →
       ∃ (q : Cue) (before after : List Cue),
         exec (.cuepost addr ([tag] ++ be 5 trigger ++ [action, arg])) s = .next
           ({ c with cues := before ++ q :: after }.answered r 0x30 (if trigger ≤ c.sel.pos then .late else .ok)
             ([BitVec.ofNat 8 (s.cues.length + 1), BitVec.ofNat 8 before.length] ++ be 5 c.sel.pos)) ∧
         s.cues = before ++ after ∧ (∀ d ∈ before, d.trigger ≤ trigger) ∧ (∀ d ∈ after, trigger < d.trigger) ∧
         q.tag = tag ∧ q.poster = r ∧ q.trigger = trigger ∧ q.action.code = action.toNat ∧ q.arg = arg ∧
         q.late = decide (trigger ≤ c.sel.pos))) ∧
  (∀ (s : State) (addr : BitVec 7) (r : Role) (tag : Byte) (kept : List Cue), s.Serves addr r →
     (r = .render ∨ r = .system) → s.CuesOk → kept = (s.cues.filter fun c : Cue => !(c.tag == tag && c.poster == r)) →
     (kept = s.cues → exec (.cuecancel addr [tag]) s = .next ((caughtUp s).answered r 0x31 .nothing [])) ∧
     (kept ≠ s.cues →
       exec (.cuecancel addr [tag]) s = .next
         ({ caughtUp s with cues := kept }.answered r 0x31 .ok
           [BitVec.ofNat 8 (s.cues.length - kept.length), BitVec.ofNat 8 kept.length])))

/-- The pass of a block event: exactly the cues that are due leave the list, and then they fire one after another, in
list order; a pass with no cue due changes nothing. A fired cue hands its action to its owner, and CUE is raised where
it is late, its owner did not answer OK, or it is a MARK (R160 to R162). -/
def Obligations.CuePass : Prop :=
  (∀ (s : State) (due kept : List Cue), due = (s.cues.filter fun c => c.late || decide (c.trigger ≤ s.sel.pos)) →
    kept = (s.cues.filter fun c => !(c.late || decide (c.trigger ≤ s.sel.pos))) →
    cuePass s = due.foldl (fun t c => fireCue c t) { s with cues := kept } ∧ (cuePass s).cues = kept) ∧
  (∀ s : State, (∀ c ∈ s.cues, c.late = false ∧ s.sel.pos < c.trigger) → cuePass s = s) ∧
  (∀ (s t : State) (c : Cue) (res : ResultCode), cueAct c s = (res, t) →
    fireCue c s =
      if c.late = true ∨ res ≠ .ok ∨ c.action = .mark then
        raise .cue [c.tag,
            BitVec.ofNat 8 (c.action.code + (if c.late then 8 else 0) + if c.poster = .system then 16 else 0),
            BitVec.ofNat 8 res.code, 0] t
      else t) ∧
  (∀ (s : State) (c : Cue),
    (c.action = .mark → cueAct c s = (.ok, s)) ∧
    (c.action = .take → (∀ kr, s.scene.state ≠ .sealed kr) → cueAct c s = (.nothing, s)) ∧
    (∀ kr v, c.action = .take → s.scene.state = .sealed kr → v = s.scene.taken s.clock.rateClass kr →
      cueAct c s = (.ok, { s with
        scene := v
        notices := (if 0 < v.cut then
          raise .cutrelease (be 2 v.cut ++ be 2 (routeCapacity s.clock.rateClass - s.scene.pendingBank.length)) s
          else s).notices })) ∧
    (c.action = .groupMute ∨ c.action = .groupUnmute → 7 < c.arg.toNat → cueAct c s = (.range, s)) ∧
    (c.action = .groupMute ∨ c.action = .groupUnmute → c.arg.toNat ≤ 7 →
      ∃ w : Byte, cueAct c s = (.ok, { s with groups := w }) ∧
        ∀ i, i < 8 → w.getLsbD i = if i = c.arg.toNat then c.action == .groupMute else s.groups.getLsbD i) ∧
    (c.action = .switch → cueAct c s = onairSteps c.arg.toNat s))

/-! ## Notices -/

/-- NOTEFETCH, in both phases and for every role: the record of highest priority of the sender's own queue is removed
and returned with the number left, the line is low while records are left, and no other queue is touched (R182, R183).
-/
def Obligations.NoteFetch : Prop :=
  ∀ (s : State) (addr : BitVec 7) (r : Role) (p : List Byte), s.Hears addr r → s.NoticesOk → p.length ≤ 250 →
    (p ≠ [] → exec (.notefetch addr p) s = .next ((caughtUp s).answered r 0x02 .format [])) ∧
    ((caughtUp s).notices.queues.get r = [] →
      exec (.notefetch addr []) s = .next ((caughtUp s).answered r 0x02 .ok [])) ∧
    (∀ v rest, (caughtUp s).notices.queues.get r = v :: rest →
      ∃ n : Notices,
        exec (.notefetch addr []) s = .next
          ({ caughtUp s with notices := n }.answered r 0x02 .ok
            ([BitVec.ofNat 8 v.kind.code, BitVec.ofNat 8 v.count] ++ v.detail ++ be 4 v.time.toNat ++
              [BitVec.ofNat 8 rest.length])) ∧
        n.routing = s.notices.routing ∧ n.queues.get r = rest ∧ n.alertLow.get r = !rest.isEmpty ∧
        (∀ w ∈ rest, v.kind.code < w.kind.code) ∧
        (∀ q, q ≠ r → n.queues.get q = (caughtUp s).notices.queues.get q ∧
          n.alertLow.get q = (caughtUp s).notices.alertLow.get q) ∧
        ∀ detail time, ({ kind := v.kind, count := 1, detail := detail, time := time } : Notice) ∈
          takeNotice v.kind detail time rest)

/-! ## Status and system -/

/-- IDENT (R175): in both start-up phases, for every role. -/
def Obligations.Ident : Prop :=
  ∀ (s : State) (addr : BitVec 7) (r : Role) (p : List Byte), s.Hears addr r → p.length ≤ 250 →
    (p = [] →
      exec (.ident addr p) s = .next ((caughtUp s).answered r 0x01 .ok
        [0x3C, 0x61, 0x64, 0x96, 0x01, if s.bus.strap then 1 else 0, BitVec.ofNat 8 r.code,
          if s.clock.phase = .running then 1 else 0])) ∧
    (p ≠ [] → exec (.ident addr p) s = .next ((caughtUp s).answered r 0x01 .format []))

/-- The commands that report: any role may issue them, each completes at once with OK and a record of the length that
the table gives, every field of it the state's but those that spec/ leaves free (log 14), and nothing else changes but a
cleared clip mark of OUTSTAT. PROGSTAT does so in STARTING too (R32, R63, R85, R106, R130, R150, R159, R163, R178). The
N that PROGSTAT shows is the one that CLOCKSET stored (the model's choice, log 52), the leader of a crossfade the
incoming feed from the beginning (log 44), and FEEDSTAT's try-2 bit that of the last request or window (log 54). -/
def Obligations.StatusCommands : Prop :=
  (∀ (s c : State) (addr : BitVec 7) (r : Role) (code : Option Side → Byte), s.Hears addr r → c = caughtUp s →
    (∀ x, code x = match x with | some .a => 0 | some .b => 1 | none => 0xFF) →
    ∃ (data : List Byte) (k : Nat),
      exec (.progstat addr []) s = .next ({ c with freeCount := k }.answered r 0x03 .ok data) ∧ data.length = 64 ∧
      data.take 12 =
        [match s.clock.source with | .internal => (0 : Byte) | .external => 1,
          match s.clock.state with | .internal => 0 | .following => 1 | .holdover => 2,
          match s.clock.rateClass with | .k48 => 0 | .k96 => 1, BitVec.ofNat 8 s.clock.n, BitVec.ofNat 8 s.clock.good] ++
        be 6 s.clock.counter.toNat ++ [match s.clock.phase with | .starting => (0 : Byte) | .running => 1] ∧
      (data.drop 12).take 11 =
        be 2 s.pagesA ++ be 2 s.pagesB ++ be 2 s.pagesD ++ be 2 (delayCapacity s.pagesD) ++
          be 2 (delayCapacity s.pagesD - 1) ++
          [(if 2 ^ c.feedA.setup.dExp * c.feedA.setup.n ≤ s.pagesA * 1024 then 1 else 0) +
            if 2 ^ c.feedB.setup.dExp * c.feedB.setup.n ≤ s.pagesB * 1024 then 2 else 0] ∧
      (data.drop 23).take 13 =
        [BitVec.ofNat 8 c.sel.state.code, code c.sel.cold, if c.sel.abandoned then 1 else 0] ++ be 2 c.sel.n0 ++
          be 2 c.sel.j ++ be 2 c.sel.n ++
          [BitVec.ofNat 8 c.sel.kx, code c.sel.state.leader,
            if c.feedA.isStandby then 0 else if c.feedB.isStandby then 1 else 0xFF, if c.sel.aligned then 1 else 0] ∧
      (data.drop 36).take 15 =
        be 5 c.sel.pos ++ be 4 c.sel.phase ++
          [if c.sel.patch then 1 else 0, if c.sel.preferred = Side.a then 0 else 1, BitVec.ofNat 8 c.sel.policyKx,
            (if c.sel.awaiting.any fun e => match e.order with | .onair _ => true | .stop _ _ _ => false then 1 else 0) +
              (if c.sel.awaiting.any fun e => match e.order with | .onair _ => false | .stop _ _ _ => true then 2 else 0),
            s.groups,
            (if s.gcMute then 1 else 0) + (if s.muteLast then 2 else 0) + (if s.muteAccepted then 4 else 0) +
              if s.gcMute || s.muteAccepted then 8 else 0] ∧
      (data.drop 51).take 2 =
        [BitVec.ofNat 8 s.cues.length, BitVec.ofNat 8 (s.cues.filter fun q : Cue => q.late).length] ∧
      (∀ q rest, s.cues = q :: rest → (data.drop 53).take 6 = [q.tag] ++ be 5 q.trigger) ∧
      (s.cues = [] → (data.drop 54).take 5 = [0xFF, 0xFF, 0xFF, 0xFF, 0xFF]) ∧
      data[59]? = some (if s.bus.lock then 1 else 0) ∧
      ∀ q : Role, data[60 + q.code]? = some
        (if q = r then 0x03 else match s.bus.slots.get q with | .executing d => d | .free | .receiving => 0)) ∧
  (∀ (s c : State) (addr : BitVec 7) (r : Role), s.Serves addr r → c = caughtUp s →
    (∀ (x : Side) (f : Feed), f = c.feed x →
      ∃ (data : List Byte) (k : Nat), exec (.feedstat addr [BitVec.ofNat 8 x.code]) s = .next
        ({ c with freeCount := k }.answered r 0x14 .ok data) ∧ data.length = 83 ∧
      data.take 13 =
        [BitVec.ofNat 8 x.code, BitVec.ofNat 8 f.st.code, BitVec.ofNat 8 f.role.code, BitVec.ofNat 8 (reasonCode f.ending)] ++
          be 5 f.startPos ++ be 4 f.count ∧
      (∀ v, f.completion = some v →
        (data.drop 13).take 6 = [BitVec.ofNat 8 (reasonCode (some v.reason))] ++ be 5 v.final) ∧
      (f.completion = none → data[13]? = some 0) ∧
      data[19]? = some ((if f.pendingPlay.isSome then 1 else 0) +
        (if 2 ^ f.setup.dExp * f.setup.n ≤ c.pages x * 1024 then 2 else 0) + (if f.intakeEnded then 4 else 0) +
        if f.sourceEnd.isSome then 8 else 0) ∧
      (∀ v, f.pendingPlay = some v → (data.drop 20).take 9 = be 5 v.pos ++ be 4 v.count) ∧
      (data.drop 29).take 7 = f.setup.bytes ∧
      (data.drop 36).take 5 = (if f.h = 2 ^ 40 then be 5 (2 ^ 40 - 1) else be 5 f.h) ∧
      (data.drop 41).take 2 = be 2 (min (f.h - f.rs.i) 65535) ∧
      (data.drop 43).take 10 = be 5 (f.last0.getD (2 ^ 40 - 1)) ++ be 5 (f.last1.getD (2 ^ 40 - 1)) ∧
      (∀ e, f.sourceEnd = some e → (data.drop 53).take 5 = be 5 e) ∧
      data[58]? = some ((if f.pace.line then 1 else 0) + (if f.pace.isOpen then 2 else 0) + if f.pace.try2 then 4 else 0) ∧
      (f.watch.bad < 4 → f.watch.good < 4 →
        data[59]? = some ((if f.watch.armed then 1 else 0) + (if f.watch.absent then 2 else 0) +
          BitVec.ofNat 8 (4 * f.watch.bad + 16 * f.watch.good) + (if f.watch.marks.l0 then 64 else 0) +
          if f.watch.marks.l1 then 128 else 0)) ∧
      (data.drop 60).take 22 =
        be 4 f.rs.rNom ++ be 4 f.rs.r ++ beInt 3 f.rs.acc ++ be 5 f.rs.i ++ be 4 f.rs.phi ++ beInt 2 f.rs.servoErr ∧
      data[82]? = some ((if f.rs.clamped then 1 else 0) + if f.rs.underrun then 2 else 0)) ∧
    (∀ (plain : List Byte),
      plain = [BitVec.ofNat 8 s.scene.state.code, if s.scene.copy = .none then 0 else 1] ++
          cap16 s.scene.pendingBank.length ++
          [match s.scene.state with | .sealed kr => BitVec.ofNat 8 kr | .free | .building => 0xFF,
            if s.scene.take = .none then 0 else 1] ++
          cap16 s.scene.active.length ++ cap16 (s.scene.active.filter fun e : ActiveRoute => e.releasing).length ++
          cap16 (s.scene.active.filter fun e : ActiveRoute => 0 < e.remaining).length ++
          (match s.clock.rateClass with | .k48 => be 2 2048 ++ be 2 1536 | .k96 => be 2 1024 ++ be 2 768) ++
          cap16 s.scene.cut →
      exec (.scnstat addr []) s = .next (c.answered r 0x26 .ok plain) ∧
      ∀ i o : Byte,
        ((95 < i.toNat ∨ 63 < o.toNat) → exec (.scnstat addr [i, o]) s = .next (c.answered r 0x26 .range [])) ∧
        (i.toNat ≤ 95 → o.toNat ≤ 63 →
          ∃ held pending : List Byte,
            exec (.scnstat addr [i, o]) s = .next (c.answered r 0x26 .ok (plain ++ held ++ pending)) ∧
            (∀ e, (s.scene.active.find? fun e : ActiveRoute => e.key == o.toNat * 256 + i.toNat) = some e →
              held = [1] ++ beInt 3 e.target ++ [BitVec.ofNat 8 e.k] ++ beInt 3 e.gain ++ beInt 4 e.step ++
                be 2 e.remaining ++ [if e.releasing then 1 else 0]) ∧
            ((s.scene.active.find? fun e : ActiveRoute => e.key == o.toNat * 256 + i.toNat) = none →
              held = List.replicate 15 0) ∧
            (∀ e, (s.scene.pendingBank.find? fun e : RouteEntry => e.key == o.toNat * 256 + i.toNat) = some e →
              pending = [1] ++ beInt 3 e.target ++ [BitVec.ofNat 8 e.k]) ∧
            ((s.scene.pendingBank.find? fun e : RouteEntry => e.key == o.toNat * 256 + i.toNat) = none →
              pending = List.replicate 5 0))) ∧
    (∃ data : List Byte, exec (.cuestat addr []) s = .next (c.answered r 0x32 .ok data) ∧
      data.length = 3 + 10 * min 4 s.cues.length ∧
      data = [BitVec.ofNat 8 s.cues.length, BitVec.ofNat 8 (s.cues.filter fun q : Cue => q.poster == .render).length,
          BitVec.ofNat 8 (s.cues.filter fun q : Cue => q.poster == .system).length] ++
        (s.cues.take 4).flatMap fun q : Cue => [q.tag, BitVec.ofNat 8 q.poster.code] ++ be 5 q.trigger ++
          [BitVec.ofNat 8 q.action.code, q.arg, if q.late then 1 else 0]) ∧
    (∀ k clear : Byte,
      ((63 < k.toNat ∨ 1 < clear.toNat) → exec (.outstat addr [k, clear]) s = .next (c.answered r 0x43 .range [])) ∧
      (∀ o, k.toNat ≤ 63 → clear.toNat ≤ 1 → s.outs[k.toNat]? = some o →
        ∃ data : List Byte, exec (.outstat addr [k, clear]) s = .next
            ({ c with outs := s.outs.set k.toNat { o with clip := o.clip && clear == 0 } }.answered r 0x43 .ok data) ∧
          data.length = 22 ∧
          data = [k] ++ be 3 o.trim ++ be 2 o.delay ++
            (match o.pendingDelay with | some d => be 2 d | none => [0xFF, 0xFF]) ++
            [if o.ownMute then 1 else 0, o.mask] ++ be 3 o.m ++
            [if o.ownMute = true ∨ o.mask &&& s.groups ≠ 0 ∨ s.gcMute = true ∨ s.muteAccepted = true ∨
                o.pendingDelay ≠ none then 0 else 1,
              (if o.ownMute then 1 else 0) + (if o.mask &&& s.groups ≠ 0 then 2 else 0) +
                (if s.gcMute || s.muteAccepted then 4 else 0) + (if o.pendingDelay.isSome then 8 else 0),
              if o.clip then 1 else 0] ++ be 2 o.writeIdx ++ be 2 o.valid ++
            [s.groups, (if s.gcMute then 1 else 0) + (if s.muteLast then 2 else 0) + (if s.muteAccepted then 4 else 0) +
              if s.gcMute || s.muteAccepted then 8 else 0])))

/-- POLICY (R104); that a field of no meaning is refused RANGE in a transition too is the model's reading (log 67).
CALLOCK, and what the lock then refuses (R11, R44, R176). NOTEROUTE: a pair with no meaning refuses the whole list and
names its place; else the pairs are taken in order, each kind ending at its last target (R185). -/
def Obligations.SystemSettings : Prop :=
  (∀ (s c : State) (addr : BitVec 7) (patch preferred kx : Byte), s.Serves addr .system → c = caughtUp s →
     ((1 < patch.toNat ∨ 1 < preferred.toNat) →
       exec (.policy addr [patch, preferred, kx]) s = .next (c.answered .system 0x46 .range [])) ∧
     (patch.toNat ≤ 1 → preferred.toNat ≤ 1 → c.sel.state.inTransition = true →
       exec (.policy addr [patch, preferred, kx]) s = .next (c.answered .system 0x46 .busy [])) ∧
     (patch.toNat ≤ 1 → preferred.toNat ≤ 1 → c.sel.state.inTransition = false →
       exec (.policy addr [patch, preferred, kx]) s = .next
         ({ c with
             sel := { c.sel with
               patch := patch == 1, preferred := if preferred = 0 then .a else .b
               policyKx := max 5 (min kx.toNat 10) } }.answered .system 0x46
           (if 5 ≤ kx.toNat ∧ kx.toNat ≤ 10 then .ok else .clamped)
           [patch, preferred, BitVec.ofNat 8 (max 5 (min kx.toNat 10))]))) ∧
  (∀ (s : State) (addr : BitVec 7), s.Serves addr .system →
     (s.bus.lock = false →
       exec (.callock addr []) s = .next
         ({ caughtUp s with bus := { s.bus with lock := true } }.answered .system 0x48 .ok [])) ∧
     (s.bus.lock = true →
       exec (.callock addr []) s = .next ((caughtUp s).answered .system 0x48 .nothing []) ∧
       (∀ p : List Byte, p.length = 3 →
         exec (.clockset addr p) s = .next ((caughtUp s).answered .system 0x40 .locked [])) ∧
       (∀ p : List Byte, p.length = 6 →
         exec (.partition addr p) s = .next ((caughtUp s).answered .system 0x41 .locked [])))) ∧
  (∀ (s c : State) (addr : BitVec 7) (ps : List (Nat × Nat)), s.Serves addr .system → c = caughtUp s →
     (∀ v ∈ ps, v.1 < 256 ∧ v.2 < 256) → ps.length ≤ 16 → s.notices.routing.length = 16 →
     (∀ k v, ps[k]? = some v → (v.1 = 0 ∨ 16 < v.1 ∨ 3 < v.2 ∧ v.2 ≠ 255) →
       (∀ d ∈ ps.take k, 1 ≤ d.1 ∧ d.1 ≤ 16 ∧ (d.2 ≤ 3 ∨ d.2 = 255)) →
       exec (.noteroute addr (ps.flatMap pairBytes)) s = .next (c.answered .system 0x47 .range [BitVec.ofNat 8 k])) ∧
     ((∀ d ∈ ps, 1 ≤ d.1 ∧ d.1 ≤ 16 ∧ (d.2 ≤ 3 ∨ d.2 = 255)) →
       ∃ (map : List (Option Role)) (data : List Byte),
         exec (.noteroute addr (ps.flatMap pairBytes)) s = .next
           ({ c with notices := { c.notices with routing := map } }.answered .system 0x47 .ok data) ∧
         map.length = 16 ∧ data.length = 17 ∧
         (∀ k, 1 ≤ k → k ≤ 16 → data[k - 1]? = some (targetByte (map.getD (k - 1) none)) ∧
           targetByte (map.getD (k - 1) none) =
             match ps.reverse.find? fun v => v.1 == k with
             | some v => BitVec.ofNat 8 v.2
             | none => targetByte (s.notices.routing.getD (k - 1) none)) ∧
         data[16]? = some (BitVec.ofNat 8
           ((List.range 16).filter fun k => map.getD k none != s.notices.routing.getD k none).length)))

/-- PARTITION: its refusals in order (R44), what a taken one leaves of the map, the feeds and the delays, each feed's
flags (setup replaced, pending PLAY dropped, placed), and the result, OK or CLAMPED (R39, R45). -/
def Obligations.Partition : Prop :=
  ∀ (s c : State) (addr : BitVec 7) (a b d cap : Nat), s.Serves addr .system → c = caughtUp s → a < 65536 → b < 65536 →
    d < 65536 → s.bus.lock = false → cap = delayCapacity d →
    (1024 < a + b + d →
      exec (.partition addr (be 2 a ++ be 2 b ++ be 2 d)) s = .next (c.answered .system 0x41 .range [])) ∧
    (a + b + d ≤ 1024 → (c.feedA.inPlay = true ∨ c.feedB.inPlay = true) →
      exec (.partition addr (be 2 a ++ be 2 b ++ be 2 d)) s = .next (c.answered .system 0x41 .busy [])) ∧
    (a + b + d ≤ 1024 → c.feedA.inPlay = false → c.feedB.inPlay = false →
      ∃ (t : State) (res : ResultCode) (cut fa fb : Byte),
        exec (.partition addr (be 2 a ++ be 2 b ++ be 2 d)) s = .next
          (t.answered .system 0x41 res (be 2 cap ++ [cut, fa, fb])) ∧
        t = { c with
          pagesA := a, pagesB := b, pagesD := d, feedA := t.feedA, feedB := t.feedB
          outs := s.outs.map fun o : OutRec => { o with
            delay := min o.delay (cap - 1), pendingDelay := o.pendingDelay.map fun v => min v (cap - 1)
            writeIdx := 0, valid := 0 } } ∧
        (∀ x pages, (x = Side.a ∧ pages = a ∨ x = Side.b ∧ pages = b) →
          (t.feed x).st = (c.feed x).st ∧ (t.feed x).completion = (c.feed x).completion ∧ (t.feed x).h = 0 ∧
          (t.feed x).s0 = 0 ∧ (t.feed x).last0 = none ∧ (t.feed x).last1 = none ∧ (t.feed x).sourceEnd = none ∧
          (t.feed x).watch.armed = false ∧ (t.feed x).pace.line = false ∧ (∀ v ∈ (t.feed x).ring, v = emptySlot) ∧
          (2 ^ (c.feed x).setup.dExp * (c.feed x).setup.n ≤ pages * 1024 →
            (t.feed x).setup = (c.feed x).setup ∧ (t.feed x).pendingPlay = (c.feed x).pendingPlay ∧
            (t.feed x).rs = (c.feed x).rs) ∧
          (pages * 1024 < 2 ^ (c.feed x).setup.dExp * (c.feed x).setup.n →
            (t.feed x).setup = { mode := .streaming, rate := s.clock.rateClass, speed := .one, n := 16, lanes := 1,
                                 dExp := 11, wExp := 3 } ∧
            (t.feed x).rs.rNom = 268435456 ∧
            (t.feed x).pendingPlay = if 32 ≤ pages then (c.feed x).pendingPlay else none)) ∧
        cut.toNat = (s.outs.filter fun o : OutRec =>
          decide (cap - 1 < o.delay) || o.pendingDelay.any fun v => decide (cap - 1 < v)).length % 256 ∧
        (∀ (f : Feed) (pages : Nat) (flags : Byte) (replaced : Bool),
          (f, pages, flags) = (c.feedA, a, fa) ∨ (f, pages, flags) = (c.feedB, b, fb) →
          replaced = decide (pages * 1024 < 2 ^ f.setup.dExp * f.setup.n) →
          flags = (if replaced then 1 else 0) +
            (if replaced && f.pendingPlay.isSome && decide (pages < 32) then 2 else 0) +
            (if !replaced || decide (32 ≤ pages) then 4 else 0)) ∧
        res = (if 2 ^ c.feedA.setup.dExp * c.feedA.setup.n ≤ a * 1024 ∧
            2 ^ c.feedB.setup.dExp * c.feedB.setup.n ≤ b * 1024 ∧
            (s.outs.all fun o => decide (o.delay ≤ cap - 1) && o.pendingDelay.all fun v => decide (v ≤ cap - 1)) = true
          then .ok else .clamped))

/-- FLUSH and FLUSH_COMPLETE: what every owner's FLUSH leaves and keeps, the awaiting commands that it answers (a STOP,
a SCNTAKE, a SCNOPEN that waits for its copy; a STOP whichever other commands await with it), and the answer that tells
what was found. Of a feed the setup, S, N and the lane receivers are kept, every slot is EMPTY, and the resampler
begins from the kept setup's nominal ratio (R35, R65, R86, R108, R113, R131, R152, R164, R177). That every owner takes
it at once is the model's reading (log 13). -/
def Obligations.Flush : Prop :=
  (∀ (s c : State) (addr : BitVec 7), s.Serves addr .system → c = caughtUp s →
    ∃ t, exec (.flush addr []) s = .next t ∧
      ((∀ e ∈ s.sel.awaiting, ∃ r x h, r ≠ Role.system ∧ e.order = .stop r x h) →
        t.bus.slots.get .system = .executing 0x49) ∧
      t.bus.flush = some
        { selState := BitVec.ofNat 8 c.sel.state.code, routes := s.scene.active.length, cues := s.cues.length } ∧
      t.cues = [] ∧ t.scene.Cleared ∧ t.groups = 0 ∧
      t.outs = s.outs.map (fun o : OutRec =>
        { o with delay := o.pendingDelay.getD o.delay, pendingDelay := none, valid := 0 }) ∧
      t.sel.state = .silent ∧ t.sel.cold = none ∧ t.sel.abandoned = false ∧ t.sel.n = 0 ∧ t.sel.n0 = 0 ∧ t.sel.j = 0 ∧
      t.sel.aligned = false ∧ t.sel.awaiting = [] ∧
      (t.sel.kx, t.sel.pos, t.sel.phase, t.sel.patch, t.sel.preferred, t.sel.policyKx) =
        (c.sel.kx, c.sel.pos, c.sel.phase, c.sel.patch, c.sel.preferred, c.sel.policyKx) ∧
      (∀ x, t.feed x = { c.feed x with
          ring := List.replicate (2 ^ (c.feed x).setup.dExp / 32)
            { stamp := none, state := .empty, got := { l0 := false, l1 := false } }
          h := 0, s0 := 0, last0 := none, last1 := none, sourceEnd := none, pace := (t.feed x).pace
          watch := (t.feed x).watch, st := .idle, role := .none, ending := none, completion := none, pendingPlay := none
          rs := { rNom := (c.feed x).setup.nominal s.clock.rateClass, r := (c.feed x).setup.nominal s.clock.rateClass
                  acc := 0, i := 0, phi := 0, held := false, servoErr := 0, clamped := false, underrun := false } }) ∧
      (∀ x, (t.feed x).pace.line = false ∧ (t.feed x).pace.isOpen = false ∧ (t.feed x).watch.armed = false ∧
        (t.feed x).watch.absent = false ∧ (t.feed x).watch.bad = 0 ∧ (t.feed x).watch.good = 0 ∧
        (t.feed x).watch.marks = { l0 := false, l1 := false } ∧ (t.feed x).watch.paceBad = false) ∧
      t = { s with
        feedA := t.feedA, feedB := t.feedB, sel := t.sel, scene := t.scene, outs := t.outs, groups := t.groups
        cues := t.cues, bus := t.bus, notices := c.notices } ∧ t.bus.lock = s.bus.lock ∧
      (∀ code, s.scene.take ≠ .none ∨ s.scene.copy ≠ .none →
        (∀ e ∈ s.sel.awaiting, ∀ x h, e.order ≠ .stop .render x h) → s.bus.slots.get .render = .executing code →
        t.bus.slots.get .render = .free ∧
        t.bus.records.get .render = { state := .done, result := .nothing, echo := code, data := [] }) ∧
      (∀ before after r x h due code, s.sel.awaiting = before ++ { order := .stop r x h, due := due } :: after →
        (∀ e ∈ before ++ after, ∀ y k, e.order ≠ .stop r y k) → (r = .feedA ∨ r = .feedB) →
        s.bus.slots.get r = .executing code →
        t.bus.slots.get r = .free ∧
        t.bus.records.get r = { state := .done, result := .nothing, echo := code, data := [0] })) ∧
  (∀ (s : State) (v : FlushFound), s.resetLine = false → s.bus.flush = some v →
    s.bus.slots.get .system = .executing 0x49 → v.routes < 65536 → v.cues < 256 →
    exec .flushComplete s = .next
      ({ s with bus := { s.bus with flush := none } }.answered .system 0x49 .ok
        ([v.selState] ++ be 2 v.routes ++ [BitVec.ofNat 8 v.cues]))) ∧
  (∀ s : State, s.bus.flush = none → exec .flushComplete s = .next s)

/-! ## Sample memory -/

/-- WORD_PARITY_FAULT: the word's parity goes bad, its sample and every other word stay (R36); that a command which
names a word at or above 1,048,576 stops is the model's choice (log 45). A word written reads back, every other word is
as it was, and the list stays in its one canonical form; two lists in that form that read alike are equal (R36; the
list is the model's representation, log 37). -/
def Obligations.SampleMemory : Prop :=
  (∀ (s : State) (a : Nat),
     (1048576 ≤ a → exec (.wordParityFault a) s = .fault .noSuchWord) ∧
     (a < 1048576 →
       ∃ m, exec (.wordParityFault a) s = .next { s with mem := m } ∧
         m.read a = { sample := (s.mem.read a).sample, good := false } ∧ ∀ b, b ≠ a → m.read b = s.mem.read b)) ∧
  ((∀ (m : Memory) (a b : Nat) (w : MemWord), Memory.wf m = true → (m.put a w).read b = if b = a then w else m.read b) ∧
   (∀ (m : Memory) (a : Nat) (w : MemWord), Memory.wf m = true → Memory.wf (m.put a w) = true) ∧
   (∀ (m : Memory) (page a : Nat), (m.scrub page).read a = if a / 1024 = page then { sample := 0, good := true }
     else m.read a) ∧
   ∀ m q : Memory, Memory.wf m = true → Memory.wf q = true → (∀ a, m.read a = q.read a) → m = q)

/-! ## Invariants that every step keeps -/

/-- The state after reset has every property that the statements below say each step keeps. -/
def Obligations.ResetMeetsInvariants : Prop :=
  State.reset.MemOk ∧ State.reset.GainsOk ∧ State.reset.CuesOk ∧ State.reset.NoticesOk ∧ State.reset.BanksOk ∧
    State.reset.RoutesOk ∧ State.reset.clock.Ok ∧ State.reset.RingsOk ∧ State.reset.ProgramOk ∧ State.reset.RatiosOk

/-- Sample memory stays in its canonical form, whatever the command or the house sample. Every mute gain stays a
multiple of 65,536 between 0 and unity (R139). The cue list stays within 32 cues and in trigger order (R155). -/
def Obligations.StepKeepsStores : Prop :=
  (∀ s t : State, s.MemOk → step s = .next t → t.MemOk) ∧
  (∀ s t : State, s.GainsOk → step s = .next t → t.GainsOk) ∧
  (∀ s t : State, s.CuesOk → step s = .next t → t.CuesOk)

/-- Every notice queue keeps at most one record of a kind, in the order of the kinds, and each alert line is low
exactly while its queue is not empty (R181, R182). A notice taken by a queue: it makes its kind's record or updates it
in place, the others are untouched, and the repeat count stays at 255 (R181). -/
def Obligations.StepKeepsNotices : Prop :=
  (∀ s t : State, s.NoticesOk → step s = .next t → t.NoticesOk) ∧
  (∀ (q : List Notice) (k : Kind) (detail : List Byte) (time : BitVec 32), QueueOk q →
     QueueOk (takeNotice k detail time q) ∧
     (∀ v, v.kind ≠ k → (v ∈ takeNotice k detail time q ↔ v ∈ q)) ∧
     ((∀ v ∈ q, v.kind ≠ k) →
       { kind := k, count := 1, detail := detail, time := time } ∈ takeNotice k detail time q ∧
       (takeNotice k detail time q).length = q.length + 1) ∧
     (∀ v ∈ q, v.kind = k →
       { kind := k, count := min (v.count + 1) 255, detail := detail, time := time } ∈ takeNotice k detail time q ∧
       (takeNotice k detail time q).length = q.length))

/-- The banks keep their order, their capacities and their fields' ranges; a route at rest stands at its target (R109
to R111, R113, R124). -/
def Obligations.StepKeepsBanks : Prop :=
  ∀ s t : State, s.BanksOk → s.RoutesOk → step s = .next t → t.BanksOk ∧ t.RoutesOk

/-- The house clock unit stays within its table of states (spec/01). -/
def Obligations.StepKeepsClock : Prop :=
  ∀ s t : State, s.clock.Ok → step s = .next t → t.clock.Ok

/-- Setups stay within their bounds, and rings keep each stamp in its slot and below the head (R18, R19, R23, R33). -/
def Obligations.StepKeepsRings : Prop :=
  ∀ s t : State, s.RingsOk → step s = .next t → t.RingsOk

/-- The feeds' states, roles and records stay those that the selector's state names, and a running standby stands at
the program position and phase (R54, R57, R70, R87). -/
def Obligations.StepKeepsProgram : Prop :=
  ∀ s t : State, s.ProgramOk → step s = .next t → t.ProgramOk

/-- A feed's ratio stays within r_nom ± (r_nom >> 9), and equals r_nom in a paced feed (R74). -/
def Obligations.StepKeepsRatios : Prop :=
  ∀ s t : State, s.ProgramOk → s.RatiosOk → step s = .next t → t.RatiosOk
end

