-- ==== Sys2Proof/Laws/State.lean ====
section
/-!
SUPPORT. What each shared update of the state leaves and sets: one lemma per field per update.
-/

namespace Sys2Proof.Machine

open Sys2Proof

/-! ## setFeed -/

@[simp] theorem State.setFeed_resetLine (s : State) (x : Side) (f : Feed) : (s.setFeed x f).resetLine = s.resetLine := rfl
@[simp] theorem State.setFeed_clock (s : State) (x : Side) (f : Feed) : (s.setFeed x f).clock = s.clock := rfl
@[simp] theorem State.setFeed_blockDue (s : State) (x : Side) (f : Feed) : (s.setFeed x f).blockDue = s.blockDue := rfl
@[simp] theorem State.setFeed_mem (s : State) (x : Side) (f : Feed) : (s.setFeed x f).mem = s.mem := rfl
@[simp] theorem State.setFeed_pagesA (s : State) (x : Side) (f : Feed) : (s.setFeed x f).pagesA = s.pagesA := rfl
@[simp] theorem State.setFeed_pagesB (s : State) (x : Side) (f : Feed) : (s.setFeed x f).pagesB = s.pagesB := rfl
@[simp] theorem State.setFeed_pagesD (s : State) (x : Side) (f : Feed) : (s.setFeed x f).pagesD = s.pagesD := rfl
@[simp] theorem State.setFeed_sel (s : State) (x : Side) (f : Feed) : (s.setFeed x f).sel = s.sel := rfl
@[simp] theorem State.setFeed_scene (s : State) (x : Side) (f : Feed) : (s.setFeed x f).scene = s.scene := rfl
@[simp] theorem State.setFeed_outs (s : State) (x : Side) (f : Feed) : (s.setFeed x f).outs = s.outs := rfl
@[simp] theorem State.setFeed_groups (s : State) (x : Side) (f : Feed) : (s.setFeed x f).groups = s.groups := rfl
@[simp] theorem State.setFeed_gcMute (s : State) (x : Side) (f : Feed) : (s.setFeed x f).gcMute = s.gcMute := rfl
@[simp] theorem State.setFeed_muteLast (s : State) (x : Side) (f : Feed) : (s.setFeed x f).muteLast = s.muteLast := rfl
@[simp] theorem State.setFeed_muteAccepted (s : State) (x : Side) (f : Feed) : (s.setFeed x f).muteAccepted = s.muteAccepted := rfl
@[simp] theorem State.setFeed_mutePin (s : State) (x : Side) (f : Feed) : (s.setFeed x f).mutePin = s.mutePin := rfl
@[simp] theorem State.setFeed_mclkStopped (s : State) (x : Side) (f : Feed) : (s.setFeed x f).mclkStopped = s.mclkStopped := rfl
@[simp] theorem State.setFeed_slots (s : State) (x : Side) (f : Feed) : (s.setFeed x f).slots = s.slots := rfl
@[simp] theorem State.setFeed_cues (s : State) (x : Side) (f : Feed) : (s.setFeed x f).cues = s.cues := rfl
@[simp] theorem State.setFeed_bus (s : State) (x : Side) (f : Feed) : (s.setFeed x f).bus = s.bus := rfl
@[simp] theorem State.setFeed_notices (s : State) (x : Side) (f : Feed) : (s.setFeed x f).notices = s.notices := rfl
@[simp] theorem State.setFeed_freeCount (s : State) (x : Side) (f : Feed) : (s.setFeed x f).freeCount = s.freeCount := rfl
@[simp] theorem State.setFeed_pending (s : State) (x : Side) (f : Feed) : (s.setFeed x f).pending = s.pending := rfl

/-! ## onFeed -/

@[simp] theorem State.onFeed_resetLine (s : State) (x : Side) (g : Feed → Feed) : (s.onFeed x g).resetLine = s.resetLine := rfl
@[simp] theorem State.onFeed_clock (s : State) (x : Side) (g : Feed → Feed) : (s.onFeed x g).clock = s.clock := rfl
@[simp] theorem State.onFeed_blockDue (s : State) (x : Side) (g : Feed → Feed) : (s.onFeed x g).blockDue = s.blockDue := rfl
@[simp] theorem State.onFeed_mem (s : State) (x : Side) (g : Feed → Feed) : (s.onFeed x g).mem = s.mem := rfl
@[simp] theorem State.onFeed_pagesA (s : State) (x : Side) (g : Feed → Feed) : (s.onFeed x g).pagesA = s.pagesA := rfl
@[simp] theorem State.onFeed_pagesB (s : State) (x : Side) (g : Feed → Feed) : (s.onFeed x g).pagesB = s.pagesB := rfl
@[simp] theorem State.onFeed_pagesD (s : State) (x : Side) (g : Feed → Feed) : (s.onFeed x g).pagesD = s.pagesD := rfl
@[simp] theorem State.onFeed_sel (s : State) (x : Side) (g : Feed → Feed) : (s.onFeed x g).sel = s.sel := rfl
@[simp] theorem State.onFeed_scene (s : State) (x : Side) (g : Feed → Feed) : (s.onFeed x g).scene = s.scene := rfl
@[simp] theorem State.onFeed_outs (s : State) (x : Side) (g : Feed → Feed) : (s.onFeed x g).outs = s.outs := rfl
@[simp] theorem State.onFeed_groups (s : State) (x : Side) (g : Feed → Feed) : (s.onFeed x g).groups = s.groups := rfl
@[simp] theorem State.onFeed_gcMute (s : State) (x : Side) (g : Feed → Feed) : (s.onFeed x g).gcMute = s.gcMute := rfl
@[simp] theorem State.onFeed_muteLast (s : State) (x : Side) (g : Feed → Feed) : (s.onFeed x g).muteLast = s.muteLast := rfl
@[simp] theorem State.onFeed_muteAccepted (s : State) (x : Side) (g : Feed → Feed) : (s.onFeed x g).muteAccepted = s.muteAccepted := rfl
@[simp] theorem State.onFeed_mutePin (s : State) (x : Side) (g : Feed → Feed) : (s.onFeed x g).mutePin = s.mutePin := rfl
@[simp] theorem State.onFeed_mclkStopped (s : State) (x : Side) (g : Feed → Feed) : (s.onFeed x g).mclkStopped = s.mclkStopped := rfl
@[simp] theorem State.onFeed_slots (s : State) (x : Side) (g : Feed → Feed) : (s.onFeed x g).slots = s.slots := rfl
@[simp] theorem State.onFeed_cues (s : State) (x : Side) (g : Feed → Feed) : (s.onFeed x g).cues = s.cues := rfl
@[simp] theorem State.onFeed_bus (s : State) (x : Side) (g : Feed → Feed) : (s.onFeed x g).bus = s.bus := rfl
@[simp] theorem State.onFeed_notices (s : State) (x : Side) (g : Feed → Feed) : (s.onFeed x g).notices = s.notices := rfl
@[simp] theorem State.onFeed_freeCount (s : State) (x : Side) (g : Feed → Feed) : (s.onFeed x g).freeCount = s.freeCount := rfl
@[simp] theorem State.onFeed_pending (s : State) (x : Side) (g : Feed → Feed) : (s.onFeed x g).pending = s.pending := rfl

/-! ## onSel -/

@[simp] theorem State.onSel_resetLine (s : State) (g : Selector → Selector) : (s.onSel g).resetLine = s.resetLine := rfl
@[simp] theorem State.onSel_clock (s : State) (g : Selector → Selector) : (s.onSel g).clock = s.clock := rfl
@[simp] theorem State.onSel_blockDue (s : State) (g : Selector → Selector) : (s.onSel g).blockDue = s.blockDue := rfl
@[simp] theorem State.onSel_mem (s : State) (g : Selector → Selector) : (s.onSel g).mem = s.mem := rfl
@[simp] theorem State.onSel_pagesA (s : State) (g : Selector → Selector) : (s.onSel g).pagesA = s.pagesA := rfl
@[simp] theorem State.onSel_pagesB (s : State) (g : Selector → Selector) : (s.onSel g).pagesB = s.pagesB := rfl
@[simp] theorem State.onSel_pagesD (s : State) (g : Selector → Selector) : (s.onSel g).pagesD = s.pagesD := rfl
@[simp] theorem State.onSel_feedA (s : State) (g : Selector → Selector) : (s.onSel g).feedA = s.feedA := rfl
@[simp] theorem State.onSel_feedB (s : State) (g : Selector → Selector) : (s.onSel g).feedB = s.feedB := rfl
@[simp] theorem State.onSel_scene (s : State) (g : Selector → Selector) : (s.onSel g).scene = s.scene := rfl
@[simp] theorem State.onSel_outs (s : State) (g : Selector → Selector) : (s.onSel g).outs = s.outs := rfl
@[simp] theorem State.onSel_groups (s : State) (g : Selector → Selector) : (s.onSel g).groups = s.groups := rfl
@[simp] theorem State.onSel_gcMute (s : State) (g : Selector → Selector) : (s.onSel g).gcMute = s.gcMute := rfl
@[simp] theorem State.onSel_muteLast (s : State) (g : Selector → Selector) : (s.onSel g).muteLast = s.muteLast := rfl
@[simp] theorem State.onSel_muteAccepted (s : State) (g : Selector → Selector) : (s.onSel g).muteAccepted = s.muteAccepted := rfl
@[simp] theorem State.onSel_mutePin (s : State) (g : Selector → Selector) : (s.onSel g).mutePin = s.mutePin := rfl
@[simp] theorem State.onSel_mclkStopped (s : State) (g : Selector → Selector) : (s.onSel g).mclkStopped = s.mclkStopped := rfl
@[simp] theorem State.onSel_slots (s : State) (g : Selector → Selector) : (s.onSel g).slots = s.slots := rfl
@[simp] theorem State.onSel_cues (s : State) (g : Selector → Selector) : (s.onSel g).cues = s.cues := rfl
@[simp] theorem State.onSel_bus (s : State) (g : Selector → Selector) : (s.onSel g).bus = s.bus := rfl
@[simp] theorem State.onSel_notices (s : State) (g : Selector → Selector) : (s.onSel g).notices = s.notices := rfl
@[simp] theorem State.onSel_freeCount (s : State) (g : Selector → Selector) : (s.onSel g).freeCount = s.freeCount := rfl
@[simp] theorem State.onSel_pending (s : State) (g : Selector → Selector) : (s.onSel g).pending = s.pending := rfl

/-! ## onOut -/

@[simp] theorem State.onOut_resetLine (s : State) (k : Nat) (g : OutRec → OutRec) : (s.onOut k g).resetLine = s.resetLine := rfl
@[simp] theorem State.onOut_clock (s : State) (k : Nat) (g : OutRec → OutRec) : (s.onOut k g).clock = s.clock := rfl
@[simp] theorem State.onOut_blockDue (s : State) (k : Nat) (g : OutRec → OutRec) : (s.onOut k g).blockDue = s.blockDue := rfl
@[simp] theorem State.onOut_mem (s : State) (k : Nat) (g : OutRec → OutRec) : (s.onOut k g).mem = s.mem := rfl
@[simp] theorem State.onOut_pagesA (s : State) (k : Nat) (g : OutRec → OutRec) : (s.onOut k g).pagesA = s.pagesA := rfl
@[simp] theorem State.onOut_pagesB (s : State) (k : Nat) (g : OutRec → OutRec) : (s.onOut k g).pagesB = s.pagesB := rfl
@[simp] theorem State.onOut_pagesD (s : State) (k : Nat) (g : OutRec → OutRec) : (s.onOut k g).pagesD = s.pagesD := rfl
@[simp] theorem State.onOut_feedA (s : State) (k : Nat) (g : OutRec → OutRec) : (s.onOut k g).feedA = s.feedA := rfl
@[simp] theorem State.onOut_feedB (s : State) (k : Nat) (g : OutRec → OutRec) : (s.onOut k g).feedB = s.feedB := rfl
@[simp] theorem State.onOut_sel (s : State) (k : Nat) (g : OutRec → OutRec) : (s.onOut k g).sel = s.sel := rfl
@[simp] theorem State.onOut_scene (s : State) (k : Nat) (g : OutRec → OutRec) : (s.onOut k g).scene = s.scene := rfl
@[simp] theorem State.onOut_groups (s : State) (k : Nat) (g : OutRec → OutRec) : (s.onOut k g).groups = s.groups := rfl
@[simp] theorem State.onOut_gcMute (s : State) (k : Nat) (g : OutRec → OutRec) : (s.onOut k g).gcMute = s.gcMute := rfl
@[simp] theorem State.onOut_muteLast (s : State) (k : Nat) (g : OutRec → OutRec) : (s.onOut k g).muteLast = s.muteLast := rfl
@[simp] theorem State.onOut_muteAccepted (s : State) (k : Nat) (g : OutRec → OutRec) : (s.onOut k g).muteAccepted = s.muteAccepted := rfl
@[simp] theorem State.onOut_mutePin (s : State) (k : Nat) (g : OutRec → OutRec) : (s.onOut k g).mutePin = s.mutePin := rfl
@[simp] theorem State.onOut_mclkStopped (s : State) (k : Nat) (g : OutRec → OutRec) : (s.onOut k g).mclkStopped = s.mclkStopped := rfl
@[simp] theorem State.onOut_slots (s : State) (k : Nat) (g : OutRec → OutRec) : (s.onOut k g).slots = s.slots := rfl
@[simp] theorem State.onOut_cues (s : State) (k : Nat) (g : OutRec → OutRec) : (s.onOut k g).cues = s.cues := rfl
@[simp] theorem State.onOut_bus (s : State) (k : Nat) (g : OutRec → OutRec) : (s.onOut k g).bus = s.bus := rfl
@[simp] theorem State.onOut_notices (s : State) (k : Nat) (g : OutRec → OutRec) : (s.onOut k g).notices = s.notices := rfl
@[simp] theorem State.onOut_freeCount (s : State) (k : Nat) (g : OutRec → OutRec) : (s.onOut k g).freeCount = s.freeCount := rfl
@[simp] theorem State.onOut_pending (s : State) (k : Nat) (g : OutRec → OutRec) : (s.onOut k g).pending = s.pending := rfl

/-! ## raise -/

@[simp] theorem raise_resetLine (k : Kind) (d : List Byte) (s : State) : (raise k d s).resetLine = s.resetLine := rfl
@[simp] theorem raise_clock (k : Kind) (d : List Byte) (s : State) : (raise k d s).clock = s.clock := rfl
@[simp] theorem raise_blockDue (k : Kind) (d : List Byte) (s : State) : (raise k d s).blockDue = s.blockDue := rfl
@[simp] theorem raise_mem (k : Kind) (d : List Byte) (s : State) : (raise k d s).mem = s.mem := rfl
@[simp] theorem raise_pagesA (k : Kind) (d : List Byte) (s : State) : (raise k d s).pagesA = s.pagesA := rfl
@[simp] theorem raise_pagesB (k : Kind) (d : List Byte) (s : State) : (raise k d s).pagesB = s.pagesB := rfl
@[simp] theorem raise_pagesD (k : Kind) (d : List Byte) (s : State) : (raise k d s).pagesD = s.pagesD := rfl
@[simp] theorem raise_feedA (k : Kind) (d : List Byte) (s : State) : (raise k d s).feedA = s.feedA := rfl
@[simp] theorem raise_feedB (k : Kind) (d : List Byte) (s : State) : (raise k d s).feedB = s.feedB := rfl
@[simp] theorem raise_sel (k : Kind) (d : List Byte) (s : State) : (raise k d s).sel = s.sel := rfl
@[simp] theorem raise_scene (k : Kind) (d : List Byte) (s : State) : (raise k d s).scene = s.scene := rfl
@[simp] theorem raise_outs (k : Kind) (d : List Byte) (s : State) : (raise k d s).outs = s.outs := rfl
@[simp] theorem raise_groups (k : Kind) (d : List Byte) (s : State) : (raise k d s).groups = s.groups := rfl
@[simp] theorem raise_gcMute (k : Kind) (d : List Byte) (s : State) : (raise k d s).gcMute = s.gcMute := rfl
@[simp] theorem raise_muteLast (k : Kind) (d : List Byte) (s : State) : (raise k d s).muteLast = s.muteLast := rfl
@[simp] theorem raise_muteAccepted (k : Kind) (d : List Byte) (s : State) : (raise k d s).muteAccepted = s.muteAccepted := rfl
@[simp] theorem raise_mutePin (k : Kind) (d : List Byte) (s : State) : (raise k d s).mutePin = s.mutePin := rfl
@[simp] theorem raise_mclkStopped (k : Kind) (d : List Byte) (s : State) : (raise k d s).mclkStopped = s.mclkStopped := rfl
@[simp] theorem raise_slots (k : Kind) (d : List Byte) (s : State) : (raise k d s).slots = s.slots := rfl
@[simp] theorem raise_cues (k : Kind) (d : List Byte) (s : State) : (raise k d s).cues = s.cues := rfl
@[simp] theorem raise_bus (k : Kind) (d : List Byte) (s : State) : (raise k d s).bus = s.bus := rfl
@[simp] theorem raise_freeCount (k : Kind) (d : List Byte) (s : State) : (raise k d s).freeCount = s.freeCount := rfl
@[simp] theorem raise_pending (k : Kind) (d : List Byte) (s : State) : (raise k d s).pending = s.pending := rfl

/-! ## raiseIf -/

@[simp] theorem raiseIf_resetLine (c : Bool) (k : Kind) (d : List Byte) (s : State) : (raiseIf c k d s).resetLine = s.resetLine := rfl
@[simp] theorem raiseIf_clock (c : Bool) (k : Kind) (d : List Byte) (s : State) : (raiseIf c k d s).clock = s.clock := rfl
@[simp] theorem raiseIf_blockDue (c : Bool) (k : Kind) (d : List Byte) (s : State) : (raiseIf c k d s).blockDue = s.blockDue := rfl
@[simp] theorem raiseIf_mem (c : Bool) (k : Kind) (d : List Byte) (s : State) : (raiseIf c k d s).mem = s.mem := rfl
@[simp] theorem raiseIf_pagesA (c : Bool) (k : Kind) (d : List Byte) (s : State) : (raiseIf c k d s).pagesA = s.pagesA := rfl
@[simp] theorem raiseIf_pagesB (c : Bool) (k : Kind) (d : List Byte) (s : State) : (raiseIf c k d s).pagesB = s.pagesB := rfl
@[simp] theorem raiseIf_pagesD (c : Bool) (k : Kind) (d : List Byte) (s : State) : (raiseIf c k d s).pagesD = s.pagesD := rfl
@[simp] theorem raiseIf_feedA (c : Bool) (k : Kind) (d : List Byte) (s : State) : (raiseIf c k d s).feedA = s.feedA := rfl
@[simp] theorem raiseIf_feedB (c : Bool) (k : Kind) (d : List Byte) (s : State) : (raiseIf c k d s).feedB = s.feedB := rfl
@[simp] theorem raiseIf_sel (c : Bool) (k : Kind) (d : List Byte) (s : State) : (raiseIf c k d s).sel = s.sel := rfl
@[simp] theorem raiseIf_scene (c : Bool) (k : Kind) (d : List Byte) (s : State) : (raiseIf c k d s).scene = s.scene := rfl
@[simp] theorem raiseIf_outs (c : Bool) (k : Kind) (d : List Byte) (s : State) : (raiseIf c k d s).outs = s.outs := rfl
@[simp] theorem raiseIf_groups (c : Bool) (k : Kind) (d : List Byte) (s : State) : (raiseIf c k d s).groups = s.groups := rfl
@[simp] theorem raiseIf_gcMute (c : Bool) (k : Kind) (d : List Byte) (s : State) : (raiseIf c k d s).gcMute = s.gcMute := rfl
@[simp] theorem raiseIf_muteLast (c : Bool) (k : Kind) (d : List Byte) (s : State) : (raiseIf c k d s).muteLast = s.muteLast := rfl
@[simp] theorem raiseIf_muteAccepted (c : Bool) (k : Kind) (d : List Byte) (s : State) : (raiseIf c k d s).muteAccepted = s.muteAccepted := rfl
@[simp] theorem raiseIf_mutePin (c : Bool) (k : Kind) (d : List Byte) (s : State) : (raiseIf c k d s).mutePin = s.mutePin := rfl
@[simp] theorem raiseIf_mclkStopped (c : Bool) (k : Kind) (d : List Byte) (s : State) : (raiseIf c k d s).mclkStopped = s.mclkStopped := rfl
@[simp] theorem raiseIf_slots (c : Bool) (k : Kind) (d : List Byte) (s : State) : (raiseIf c k d s).slots = s.slots := rfl
@[simp] theorem raiseIf_cues (c : Bool) (k : Kind) (d : List Byte) (s : State) : (raiseIf c k d s).cues = s.cues := rfl
@[simp] theorem raiseIf_bus (c : Bool) (k : Kind) (d : List Byte) (s : State) : (raiseIf c k d s).bus = s.bus := rfl
@[simp] theorem raiseIf_freeCount (c : Bool) (k : Kind) (d : List Byte) (s : State) : (raiseIf c k d s).freeCount = s.freeCount := rfl
@[simp] theorem raiseIf_pending (c : Bool) (k : Kind) (d : List Byte) (s : State) : (raiseIf c k d s).pending = s.pending := rfl

/-! ## complete -/

@[simp] theorem complete_resetLine (r : Role) (res : ResultCode) (d : List Byte) (s : State) : (complete r res d s).resetLine = s.resetLine := rfl
@[simp] theorem complete_clock (r : Role) (res : ResultCode) (d : List Byte) (s : State) : (complete r res d s).clock = s.clock := rfl
@[simp] theorem complete_blockDue (r : Role) (res : ResultCode) (d : List Byte) (s : State) : (complete r res d s).blockDue = s.blockDue := rfl
@[simp] theorem complete_mem (r : Role) (res : ResultCode) (d : List Byte) (s : State) : (complete r res d s).mem = s.mem := rfl
@[simp] theorem complete_pagesA (r : Role) (res : ResultCode) (d : List Byte) (s : State) : (complete r res d s).pagesA = s.pagesA := rfl
@[simp] theorem complete_pagesB (r : Role) (res : ResultCode) (d : List Byte) (s : State) : (complete r res d s).pagesB = s.pagesB := rfl
@[simp] theorem complete_pagesD (r : Role) (res : ResultCode) (d : List Byte) (s : State) : (complete r res d s).pagesD = s.pagesD := rfl
@[simp] theorem complete_feedA (r : Role) (res : ResultCode) (d : List Byte) (s : State) : (complete r res d s).feedA = s.feedA := rfl
@[simp] theorem complete_feedB (r : Role) (res : ResultCode) (d : List Byte) (s : State) : (complete r res d s).feedB = s.feedB := rfl
@[simp] theorem complete_sel (r : Role) (res : ResultCode) (d : List Byte) (s : State) : (complete r res d s).sel = s.sel := rfl
@[simp] theorem complete_scene (r : Role) (res : ResultCode) (d : List Byte) (s : State) : (complete r res d s).scene = s.scene := rfl
@[simp] theorem complete_outs (r : Role) (res : ResultCode) (d : List Byte) (s : State) : (complete r res d s).outs = s.outs := rfl
@[simp] theorem complete_groups (r : Role) (res : ResultCode) (d : List Byte) (s : State) : (complete r res d s).groups = s.groups := rfl
@[simp] theorem complete_gcMute (r : Role) (res : ResultCode) (d : List Byte) (s : State) : (complete r res d s).gcMute = s.gcMute := rfl
@[simp] theorem complete_muteLast (r : Role) (res : ResultCode) (d : List Byte) (s : State) : (complete r res d s).muteLast = s.muteLast := rfl
@[simp] theorem complete_muteAccepted (r : Role) (res : ResultCode) (d : List Byte) (s : State) : (complete r res d s).muteAccepted = s.muteAccepted := rfl
@[simp] theorem complete_mutePin (r : Role) (res : ResultCode) (d : List Byte) (s : State) : (complete r res d s).mutePin = s.mutePin := rfl
@[simp] theorem complete_mclkStopped (r : Role) (res : ResultCode) (d : List Byte) (s : State) : (complete r res d s).mclkStopped = s.mclkStopped := rfl
@[simp] theorem complete_slots (r : Role) (res : ResultCode) (d : List Byte) (s : State) : (complete r res d s).slots = s.slots := rfl
@[simp] theorem complete_cues (r : Role) (res : ResultCode) (d : List Byte) (s : State) : (complete r res d s).cues = s.cues := rfl
@[simp] theorem complete_notices (r : Role) (res : ResultCode) (d : List Byte) (s : State) : (complete r res d s).notices = s.notices := rfl
@[simp] theorem complete_freeCount (r : Role) (res : ResultCode) (d : List Byte) (s : State) : (complete r res d s).freeCount = s.freeCount := rfl
@[simp] theorem complete_pending (r : Role) (res : ResultCode) (d : List Byte) (s : State) : (complete r res d s).pending = s.pending := rfl

/-! ## answer -/

@[simp] theorem answer_resetLine (r : Role) (c : Byte) (res : ResultCode) (s : State) : (answer r c res s).resetLine = s.resetLine := rfl
@[simp] theorem answer_clock (r : Role) (c : Byte) (res : ResultCode) (s : State) : (answer r c res s).clock = s.clock := rfl
@[simp] theorem answer_blockDue (r : Role) (c : Byte) (res : ResultCode) (s : State) : (answer r c res s).blockDue = s.blockDue := rfl
@[simp] theorem answer_mem (r : Role) (c : Byte) (res : ResultCode) (s : State) : (answer r c res s).mem = s.mem := rfl
@[simp] theorem answer_pagesA (r : Role) (c : Byte) (res : ResultCode) (s : State) : (answer r c res s).pagesA = s.pagesA := rfl
@[simp] theorem answer_pagesB (r : Role) (c : Byte) (res : ResultCode) (s : State) : (answer r c res s).pagesB = s.pagesB := rfl
@[simp] theorem answer_pagesD (r : Role) (c : Byte) (res : ResultCode) (s : State) : (answer r c res s).pagesD = s.pagesD := rfl
@[simp] theorem answer_feedA (r : Role) (c : Byte) (res : ResultCode) (s : State) : (answer r c res s).feedA = s.feedA := rfl
@[simp] theorem answer_feedB (r : Role) (c : Byte) (res : ResultCode) (s : State) : (answer r c res s).feedB = s.feedB := rfl
@[simp] theorem answer_sel (r : Role) (c : Byte) (res : ResultCode) (s : State) : (answer r c res s).sel = s.sel := rfl
@[simp] theorem answer_scene (r : Role) (c : Byte) (res : ResultCode) (s : State) : (answer r c res s).scene = s.scene := rfl
@[simp] theorem answer_outs (r : Role) (c : Byte) (res : ResultCode) (s : State) : (answer r c res s).outs = s.outs := rfl
@[simp] theorem answer_groups (r : Role) (c : Byte) (res : ResultCode) (s : State) : (answer r c res s).groups = s.groups := rfl
@[simp] theorem answer_gcMute (r : Role) (c : Byte) (res : ResultCode) (s : State) : (answer r c res s).gcMute = s.gcMute := rfl
@[simp] theorem answer_muteLast (r : Role) (c : Byte) (res : ResultCode) (s : State) : (answer r c res s).muteLast = s.muteLast := rfl
@[simp] theorem answer_muteAccepted (r : Role) (c : Byte) (res : ResultCode) (s : State) : (answer r c res s).muteAccepted = s.muteAccepted := rfl
@[simp] theorem answer_mutePin (r : Role) (c : Byte) (res : ResultCode) (s : State) : (answer r c res s).mutePin = s.mutePin := rfl
@[simp] theorem answer_mclkStopped (r : Role) (c : Byte) (res : ResultCode) (s : State) : (answer r c res s).mclkStopped = s.mclkStopped := rfl
@[simp] theorem answer_slots (r : Role) (c : Byte) (res : ResultCode) (s : State) : (answer r c res s).slots = s.slots := rfl
@[simp] theorem answer_cues (r : Role) (c : Byte) (res : ResultCode) (s : State) : (answer r c res s).cues = s.cues := rfl
@[simp] theorem answer_notices (r : Role) (c : Byte) (res : ResultCode) (s : State) : (answer r c res s).notices = s.notices := rfl
@[simp] theorem answer_freeCount (r : Role) (c : Byte) (res : ResultCode) (s : State) : (answer r c res s).freeCount = s.freeCount := rfl
@[simp] theorem answer_pending (r : Role) (c : Byte) (res : ResultCode) (s : State) : (answer r c res s).pending = s.pending := rfl

/-! ## usedFree -/

@[simp] theorem usedFree_resetLine (k : Nat) (s : State) : (usedFree k s).resetLine = s.resetLine := rfl
@[simp] theorem usedFree_clock (k : Nat) (s : State) : (usedFree k s).clock = s.clock := rfl
@[simp] theorem usedFree_blockDue (k : Nat) (s : State) : (usedFree k s).blockDue = s.blockDue := rfl
@[simp] theorem usedFree_mem (k : Nat) (s : State) : (usedFree k s).mem = s.mem := rfl
@[simp] theorem usedFree_pagesA (k : Nat) (s : State) : (usedFree k s).pagesA = s.pagesA := rfl
@[simp] theorem usedFree_pagesB (k : Nat) (s : State) : (usedFree k s).pagesB = s.pagesB := rfl
@[simp] theorem usedFree_pagesD (k : Nat) (s : State) : (usedFree k s).pagesD = s.pagesD := rfl
@[simp] theorem usedFree_feedA (k : Nat) (s : State) : (usedFree k s).feedA = s.feedA := rfl
@[simp] theorem usedFree_feedB (k : Nat) (s : State) : (usedFree k s).feedB = s.feedB := rfl
@[simp] theorem usedFree_sel (k : Nat) (s : State) : (usedFree k s).sel = s.sel := rfl
@[simp] theorem usedFree_scene (k : Nat) (s : State) : (usedFree k s).scene = s.scene := rfl
@[simp] theorem usedFree_outs (k : Nat) (s : State) : (usedFree k s).outs = s.outs := rfl
@[simp] theorem usedFree_groups (k : Nat) (s : State) : (usedFree k s).groups = s.groups := rfl
@[simp] theorem usedFree_gcMute (k : Nat) (s : State) : (usedFree k s).gcMute = s.gcMute := rfl
@[simp] theorem usedFree_muteLast (k : Nat) (s : State) : (usedFree k s).muteLast = s.muteLast := rfl
@[simp] theorem usedFree_muteAccepted (k : Nat) (s : State) : (usedFree k s).muteAccepted = s.muteAccepted := rfl
@[simp] theorem usedFree_mutePin (k : Nat) (s : State) : (usedFree k s).mutePin = s.mutePin := rfl
@[simp] theorem usedFree_mclkStopped (k : Nat) (s : State) : (usedFree k s).mclkStopped = s.mclkStopped := rfl
@[simp] theorem usedFree_slots (k : Nat) (s : State) : (usedFree k s).slots = s.slots := rfl
@[simp] theorem usedFree_cues (k : Nat) (s : State) : (usedFree k s).cues = s.cues := rfl
@[simp] theorem usedFree_bus (k : Nat) (s : State) : (usedFree k s).bus = s.bus := rfl
@[simp] theorem usedFree_notices (k : Nat) (s : State) : (usedFree k s).notices = s.notices := rfl
@[simp] theorem usedFree_pending (k : Nat) (s : State) : (usedFree k s).pending = s.pending := rfl

@[simp] theorem State.onSel_sel (s : State) (g : Selector → Selector) : (s.onSel g).sel = g s.sel := rfl

@[simp] theorem State.onOut_outs (s : State) (k : Nat) (g : OutRec → OutRec) :
    (s.onOut k g).outs = s.outs.modify k g := rfl

@[simp] theorem complete_bus (r : Role) (res : ResultCode) (d : List Byte) (s : State) :
    (complete r res d s).bus = s.bus.answered r (s.bus.slots.get r).code res d := rfl

@[simp] theorem answer_bus (r : Role) (c : Byte) (res : ResultCode) (s : State) :
    (answer r c res s).bus = s.bus.answered r c res [] := rfl

@[simp] theorem usedFree_freeCount (k : Nat) (s : State) : (usedFree k s).freeCount = s.freeCount + k := rfl

@[simp] theorem State.setFeed_a_feedA (s : State) (f : Feed) : (s.setFeed .a f).feedA = f := rfl

@[simp] theorem State.setFeed_a_feedB (s : State) (f : Feed) : (s.setFeed .a f).feedB = s.feedB := rfl

@[simp] theorem State.setFeed_b_feedA (s : State) (f : Feed) : (s.setFeed .b f).feedA = s.feedA := rfl

@[simp] theorem State.setFeed_b_feedB (s : State) (f : Feed) : (s.setFeed .b f).feedB = f := rfl

@[simp] theorem State.feed_a (s : State) : s.feed .a = s.feedA := rfl

@[simp] theorem State.feed_b (s : State) : s.feed .b = s.feedB := rfl

@[simp] theorem State.feed_setFeed_self (s : State) (x : Side) (f : Feed) : (s.setFeed x f).feed x = f := by
  cases x <;> rfl

theorem State.feed_setFeed (s : State) (x y : Side) (f : Feed) :
    (s.setFeed x f).feed y = if y = x then f else s.feed y := by
  cases x <;> cases y <;> rfl

theorem State.feed_onFeed (s : State) (x y : Side) (g : Feed → Feed) :
    (s.onFeed x g).feed y = if y = x then g (s.feed x) else s.feed y := by
  cases x <;> cases y <;> rfl

@[simp] theorem State.feed_onSel (s : State) (g : Selector → Selector) (x : Side) :
    (s.onSel g).feed x = s.feed x := by cases x <;> rfl

@[simp] theorem State.feed_raise (k : Kind) (d : List Byte) (s : State) (x : Side) :
    (raise k d s).feed x = s.feed x := by cases x <;> rfl

@[simp] theorem State.feed_raiseIf (c : Bool) (k : Kind) (d : List Byte) (s : State) (x : Side) :
    (raiseIf c k d s).feed x = s.feed x := by cases x <;> rfl

@[simp] theorem Side.other_other (x : Side) : x.other.other = x := by cases x <;> rfl

@[simp] theorem Side.other_ne (x : Side) : x.other ≠ x := by cases x <;> decide

@[simp] theorem PerRole.get_set_self {α : Type} (p : PerRole α) (r : Role) (v : α) : (p.set r v).get r = v := by
  cases r <;> rfl

theorem PerRole.get_set {α : Type} (p : PerRole α) (r q : Role) (v : α) :
    (p.set r v).get q = if q = r then v else p.get q := by
  cases r <;> cases q <;> rfl

@[simp] theorem PerRole.set_set {α : Type} (p : PerRole α) (r : Role) (v w : α) : (p.set r v).set r w = p.set r w := by
  cases r <;> rfl

end Sys2Proof.Machine
end

