-- ==== Sys2Proof/Laws/Frames.lean ====
section
/-!
SUPPORT. What the operations on the feeds, the resamplers and the selector leave unchanged: everything outside the two
feeds, the selector and the notice unit.
-/

set_option linter.unusedTactic false
set_option linter.unreachableTactic false

namespace Sys2Proof.Machine

open Sys2Proof

/-- The state with the feeds, the selector and the notices blanked: what the program's operations leave unchanged. -/
def State.outside (s : State) : State :=
  { s with
    feedA := feedReset .k48, feedB := feedReset .k48, sel := selectorPowerOn, notices := noticesReset }

theorem State.resetLine_of_outside {s t : State} (h : t.outside = s.outside) : t.resetLine = s.resetLine := by
  have k := congrArg State.resetLine h
  exact k

theorem State.clock_of_outside {s t : State} (h : t.outside = s.outside) : t.clock = s.clock := by
  have k := congrArg State.clock h
  exact k

theorem State.blockDue_of_outside {s t : State} (h : t.outside = s.outside) : t.blockDue = s.blockDue := by
  have k := congrArg State.blockDue h
  exact k

theorem State.mem_of_outside {s t : State} (h : t.outside = s.outside) : t.mem = s.mem := by
  have k := congrArg State.mem h
  exact k

theorem State.pagesA_of_outside {s t : State} (h : t.outside = s.outside) : t.pagesA = s.pagesA := by
  have k := congrArg State.pagesA h
  exact k

theorem State.pagesB_of_outside {s t : State} (h : t.outside = s.outside) : t.pagesB = s.pagesB := by
  have k := congrArg State.pagesB h
  exact k

theorem State.pagesD_of_outside {s t : State} (h : t.outside = s.outside) : t.pagesD = s.pagesD := by
  have k := congrArg State.pagesD h
  exact k

theorem State.scene_of_outside {s t : State} (h : t.outside = s.outside) : t.scene = s.scene := by
  have k := congrArg State.scene h
  exact k

theorem State.outs_of_outside {s t : State} (h : t.outside = s.outside) : t.outs = s.outs := by
  have k := congrArg State.outs h
  exact k

theorem State.groups_of_outside {s t : State} (h : t.outside = s.outside) : t.groups = s.groups := by
  have k := congrArg State.groups h
  exact k

theorem State.gcMute_of_outside {s t : State} (h : t.outside = s.outside) : t.gcMute = s.gcMute := by
  have k := congrArg State.gcMute h
  exact k

theorem State.muteLast_of_outside {s t : State} (h : t.outside = s.outside) : t.muteLast = s.muteLast := by
  have k := congrArg State.muteLast h
  exact k

theorem State.muteAccepted_of_outside {s t : State} (h : t.outside = s.outside) : t.muteAccepted = s.muteAccepted := by
  have k := congrArg State.muteAccepted h
  exact k

theorem State.mutePin_of_outside {s t : State} (h : t.outside = s.outside) : t.mutePin = s.mutePin := by
  have k := congrArg State.mutePin h
  exact k

theorem State.mclkStopped_of_outside {s t : State} (h : t.outside = s.outside) : t.mclkStopped = s.mclkStopped := by
  have k := congrArg State.mclkStopped h
  exact k

theorem State.slots_of_outside {s t : State} (h : t.outside = s.outside) : t.slots = s.slots := by
  have k := congrArg State.slots h
  exact k

theorem State.cues_of_outside {s t : State} (h : t.outside = s.outside) : t.cues = s.cues := by
  have k := congrArg State.cues h
  exact k

theorem State.bus_of_outside {s t : State} (h : t.outside = s.outside) : t.bus = s.bus := by
  have k := congrArg State.bus h
  exact k

theorem State.freeCount_of_outside {s t : State} (h : t.outside = s.outside) : t.freeCount = s.freeCount := by
  have k := congrArg State.freeCount h
  exact k

theorem State.pending_of_outside {s t : State} (h : t.outside = s.outside) : t.pending = s.pending := by
  have k := congrArg State.pending h
  exact k

/-- A fold of steps that leave the outside alone leaves it alone. -/
theorem foldl_outside {α : Type} (f : State → α → State) (h : ∀ s a, (f s a).outside = s.outside) (l : List α)
    (s : State) : (l.foldl f s).outside = s.outside := by
  induction l generalizing s with
  | nil => rfl
  | cons a l ih => rw [List.foldl_cons, ih, h]

@[simp] theorem State.setFeed_outside (s : State) (x : Side) (f : Feed) :
    (s.setFeed x f).outside = s.outside := by
  rfl

@[simp] theorem State.onFeed_outside (s : State) (x : Side) (g : Feed → Feed) :
    (s.onFeed x g).outside = s.outside := by
  rfl

@[simp] theorem State.onSel_outside (s : State) (g : Selector → Selector) :
    (s.onSel g).outside = s.outside := by
  rfl

@[simp] theorem raise_outside (k : Kind) (d : List Byte) (s : State) :
    (raise k d s).outside = s.outside := by
  rfl

@[simp] theorem raiseIf_outside (c : Bool) (k : Kind) (d : List Byte) (s : State) :
    (raiseIf c k d s).outside = s.outside := by
  rfl

@[simp] theorem completeFeed_outside (x : Side) (reason : Reason) (s : State) :
    (completeFeed x reason s).outside = s.outside := by
  simp [completeFeed]

@[simp] theorem setEnding_outside (x : Side) (reason : Reason) (s : State) :
    (setEnding x reason s).outside = s.outside := by
  simp [setEnding]

@[simp] theorem setRole_outside (x : Side) (role : ProgRole) (s : State) :
    (setRole x role s).outside = s.outside := by
  simp [setRole]

@[simp] theorem beginXfade_outside (x : Side) (s : State) :
    (beginXfade x s).outside = s.outside := by
  simp [beginXfade]

@[simp] theorem beginFade_outside (x : Side) (c : SilenceCause) (y : Option Side) (s : State) :
    (beginFade x c y s).outside = s.outside := by
  simp [beginFade]

@[simp] theorem beginRise_outside (x : Side) (s : State) :
    (beginRise x s).outside = s.outside := by
  simp [beginRise]

@[simp] theorem enterSilent_outside (x : Option Side) (c : SilenceCause) (s : State) :
    (enterSilent x c s).outside = s.outside := by
  simp [enterSilent]

@[simp] theorem finishOutgoing_outside (x : Side) (s : State) :
    (finishOutgoing x s).outside = s.outside := by
  unfold finishOutgoing; split <;> (try split) <;> (try split) <;> simp

@[simp] theorem endTransition_outside (s : State) :
    (endTransition s).outside = s.outside := by
  unfold endTransition; split <;> (try split) <;> (try split) <;> simp

@[simp] theorem caughtUp_outside (s : State) :
    (caughtUp s).outside = s.outside := by
  unfold caughtUp; split <;> (try split) <;> (try split) <;> simp

@[simp] theorem failover_outside (x : Side) (s : State) :
    (failover x s).outside = s.outside := by
  unfold failover; split <;> (try split) <;> (try split) <;> simp

@[simp] theorem abandonXfade_outside (y : Side) (reason : Reason) (s : State) :
    (abandonXfade y reason s).outside = s.outside := by
  simp [abandonXfade]

@[simp] theorem fadeBack_outside (x : Side) (reason : Reason) (s : State) :
    (fadeBack x reason s).outside = s.outside := by
  unfold fadeBack; split <;> (try split) <;> (try split) <;> simp

@[simp] theorem selectorLoss_outside (x : Side) (s : State) :
    (selectorLoss x s).outside = s.outside := by
  unfold selectorLoss; split <;> (try split) <;> (try split) <;> simp

@[simp] theorem lossTaken_outside (x : Side) (s : State) :
    (lossTaken x s).outside = s.outside := by
  unfold lossTaken; split <;> (try split) <;> (try split) <;> simp

@[simp] theorem stopOnAir_outside (x : Side) (h : Bool) (s : State) :
    ((stopOnAir x h s).2).outside = s.outside := by
  unfold stopOnAir; split <;> (try split) <;> (try split) <;> simp

@[simp] theorem onairSteps_outside (n : Nat) (s : State) :
    ((onairSteps n s).2).outside = s.outside := by
  unfold onairSteps; split; · rfl
  · split <;> (try split) <;> (try split) <;> (try split) <;> simp

@[simp] theorem setAligned_outside (y : Side) (v : Bool) (s : State) :
    (setAligned y v s).outside = s.outside := by
  simp [setAligned]

@[simp] theorem judgeAlignment_outside (s : State) :
    (judgeAlignment s).outside = s.outside := by
  unfold judgeAlignment; split <;> (try split) <;> (try split) <;> simp

@[simp] theorem takeStandby_outside (x : Side) (s : State) :
    (takeStandby x s).outside = s.outside := by
  simp [takeStandby]

@[simp] theorem takePrimed_outside (s : State) :
    (takePrimed s).outside = s.outside := by
  unfold takePrimed; split <;> (try split) <;> (try split) <;> simp

@[simp] theorem skewCheck_outside (x : Side) (l : Lane) (a : Nat) (s : State) :
    (skewCheck x l a s).outside = s.outside := by
  unfold skewCheck; split
  · exact foldl_outside _ (fun u t => by simp) _ s
  · rfl

@[simp] theorem placeSlot_outside (x : Side) (l : Lane) (t : Nat) (v : Bool) (s : State) :
    (placeSlot x l t v s).outside = s.outside := by
  unfold placeSlot; simp only []; split <;> simp

@[simp] theorem laneAbandon_outside (x : Side) (l : Lane) (s : State) :
    (laneAbandon x l s).outside = s.outside := by
  unfold laneAbandon; split <;> (try split) <;> (try split) <;> simp

@[simp] theorem paceExpiry_outside (x : Side) (s : State) :
    (paceExpiry x s).outside = s.outside := by
  unfold paceExpiry; split <;> (try split) <;> (try split) <;> simp

@[simp] theorem burstExpiry_outside (x : Side) (s : State) :
    (burstExpiry x s).outside = s.outside := by
  unfold burstExpiry; split <;> (try split) <;> (try split) <;> simp

@[simp] theorem closePeriod_outside (x : Side) (s : State) :
    (closePeriod x s).outside = s.outside := by
  unfold closePeriod; simp only []; split <;> (try split) <;> simp

@[simp] theorem watchClose_outside (x : Side) (s : State) :
    (watchClose x s).outside = s.outside := by
  unfold watchClose; split <;> (try split) <;> (try split) <;> simp

@[simp] theorem noteUnderrun_outside (s : State) :
    (noteUnderrun s).outside = s.outside := by
  unfold noteUnderrun; split <;> (try split) <;> (try split) <;> simp

@[simp] theorem damageSlot_outside (e : RingFail) (s : State) :
    (damageSlot e s).outside = s.outside := by
  simp [damageSlot]

/-- With no late read, none is listed as made before another (R79). -/
@[simp] theorem readsMade_none_late (s : State) (passing : List Access) :
    s.readsMade { passing := passing, late := [] } = [] := rfl

/-- A read that is not listed as made is made in the state as it stands (R78). -/
@[simp] theorem ringRead_nil (s : State) (passing : List Access) (r : RingRead) (t : Int) :
    s.ringRead passing [] r t = s.readFrame passing r.feed r.channel r.tap t := rfl

@[simp] theorem markFail_outside (e : RingFail) (s : State) :
    (markFail e s).outside = s.outside := by
  simp [markFail]

@[simp] theorem markFails_outside (es : List RingFail) (s : State) :
    (markFails es s).outside = s.outside := by
  exact foldl_outside _ (fun u t => by simp) _ s

@[simp] theorem inheritRatio_outside (s : State) :
    (inheritRatio s).outside = s.outside := by
  unfold inheritRatio; split <;> (try split) <;> (try split) <;> simp

@[simp] theorem advancePositions_outside (s : State) :
    (advancePositions s).outside = s.outside := by
  unfold advancePositions; split <;> simp

@[simp] theorem riseUnaligns_outside (s : State) :
    (riseUnaligns s).outside = s.outside := by
  unfold riseUnaligns; split <;> (try split) <;> (try split) <;> simp

@[simp] theorem completeWith_outside (x : Side) (reason : Reason) (s : State) :
    (completeWith x reason s).outside = s.outside := by
  unfold completeWith; split <;> (try split) <;> (try split) <;> simp

@[simp] theorem leaderEnds_outside (x : Side) (s : State) :
    (leaderEnds x s).outside = s.outside := by
  simp [leaderEnds]

@[simp] theorem standbyEnds_outside (x : Side) (s : State) :
    (standbyEnds x s).outside = s.outside := by
  unfold standbyEnds; split <;> (try split) <;> (try split) <;> simp

@[simp] theorem takeEnds_outside (s : State) :
    (takeEnds s).outside = s.outside := by
  unfold takeEnds; split <;> (try split) <;> (try split) <;> simp

@[simp] theorem servoStep_outside (s : State) :
    (servoStep s).outside = s.outside := by
  unfold servoStep; split
  · rfl
  · simp only []; split <;> simp

end Sys2Proof.Machine
end

