-- ==== Sys2Proof/Laws/Commands.lean ====
section
/-!
SUPPORT. What the interface does with a write frame, once: ignored, answered by the interface, or handed to the owner.
-/

namespace Sys2Proof.Machine

open Sys2Proof

/-- Everything but the feeds, the selector, the notices, the interface and the model's own fields. -/
def State.plant (s : State) : State :=
  { s.outside with bus := busReset false, freeCount := 0, pending := [] }

theorem State.plant_of_outside {s t : State} (h : t.outside = s.outside) : t.plant = s.plant := by
  unfold State.plant; rw [h]

@[simp] theorem caughtUp_bus (s : State) : (caughtUp s).bus = s.bus := State.bus_of_outside (caughtUp_outside s)

@[simp] theorem caughtUp_resetLine (s : State) : (caughtUp s).resetLine = s.resetLine :=
  State.resetLine_of_outside (caughtUp_outside s)

@[simp] theorem caughtUp_clock (s : State) : (caughtUp s).clock = s.clock :=
  State.clock_of_outside (caughtUp_outside s)

@[simp] theorem caughtUp_blockDue (s : State) : (caughtUp s).blockDue = s.blockDue :=
  State.blockDue_of_outside (caughtUp_outside s)

@[simp] theorem caughtUp_mem (s : State) : (caughtUp s).mem = s.mem :=
  State.mem_of_outside (caughtUp_outside s)

@[simp] theorem caughtUp_pagesA (s : State) : (caughtUp s).pagesA = s.pagesA :=
  State.pagesA_of_outside (caughtUp_outside s)

@[simp] theorem caughtUp_pagesB (s : State) : (caughtUp s).pagesB = s.pagesB :=
  State.pagesB_of_outside (caughtUp_outside s)

@[simp] theorem caughtUp_pagesD (s : State) : (caughtUp s).pagesD = s.pagesD :=
  State.pagesD_of_outside (caughtUp_outside s)

@[simp] theorem caughtUp_scene (s : State) : (caughtUp s).scene = s.scene :=
  State.scene_of_outside (caughtUp_outside s)

@[simp] theorem caughtUp_outs (s : State) : (caughtUp s).outs = s.outs :=
  State.outs_of_outside (caughtUp_outside s)

@[simp] theorem caughtUp_groups (s : State) : (caughtUp s).groups = s.groups :=
  State.groups_of_outside (caughtUp_outside s)

@[simp] theorem caughtUp_gcMute (s : State) : (caughtUp s).gcMute = s.gcMute :=
  State.gcMute_of_outside (caughtUp_outside s)

@[simp] theorem caughtUp_muteLast (s : State) : (caughtUp s).muteLast = s.muteLast :=
  State.muteLast_of_outside (caughtUp_outside s)

@[simp] theorem caughtUp_muteAccepted (s : State) : (caughtUp s).muteAccepted = s.muteAccepted :=
  State.muteAccepted_of_outside (caughtUp_outside s)

@[simp] theorem caughtUp_mutePin (s : State) : (caughtUp s).mutePin = s.mutePin :=
  State.mutePin_of_outside (caughtUp_outside s)

@[simp] theorem caughtUp_mclkStopped (s : State) : (caughtUp s).mclkStopped = s.mclkStopped :=
  State.mclkStopped_of_outside (caughtUp_outside s)

@[simp] theorem caughtUp_slots (s : State) : (caughtUp s).slots = s.slots :=
  State.slots_of_outside (caughtUp_outside s)

@[simp] theorem caughtUp_cues (s : State) : (caughtUp s).cues = s.cues :=
  State.cues_of_outside (caughtUp_outside s)

@[simp] theorem caughtUp_freeCount (s : State) : (caughtUp s).freeCount = s.freeCount :=
  State.freeCount_of_outside (caughtUp_outside s)

@[simp] theorem caughtUp_pending (s : State) : (caughtUp s).pending = s.pending :=
  State.pending_of_outside (caughtUp_outside s)

@[simp] theorem caughtUp_plant (s : State) : (caughtUp s).plant = s.plant :=
  State.plant_of_outside (caughtUp_outside s)

@[simp] theorem complete_plant (r : Role) (res : ResultCode) (d : List Byte) (s : State) :
    (complete r res d s).plant = s.plant := rfl

@[simp] theorem answer_plant (r : Role) (c : Byte) (res : ResultCode) (s : State) :
    (answer r c res s).plant = s.plant := rfl

@[simp] theorem usedFree_plant (k : Nat) (s : State) : (usedFree k s).plant = s.plant := rfl

@[simp] theorem handedOver_plant (r : Role) (c : Byte) (s : State) : (handedOver r c s).plant = s.plant := by
  have h := caughtUp_plant s
  exact h

/-- A frame is ignored, answered by the interface, or handed to the owner (R165 to R170). -/
theorem takeFrame_cases (code : Byte) (addr : BitVec 7) (p : List Byte) (owner : Role → State → State) (s : State) :
    takeFrame code addr p owner s = s ∨
      (∃ r res, s.Hears addr r ∧ judge code.toNat r p s.starting = some res ∧
        takeFrame code addr p owner s = answer r code res s) ∨
      ∃ r, s.Hears addr r ∧ judge code.toNat r p s.starting = none ∧
        takeFrame code addr p owner s = owner r (handedOver r code s) := by
  unfold takeFrame State.Hears
  split
  · exact .inl rfl
  · split
    · exact .inl rfl
    · split
      · exact .inl rfl
      · split
        · exact .inr (.inl ⟨_, _, by simp_all, by assumption, rfl⟩)
        · exact .inr (.inr ⟨_, by simp_all, by assumption, rfl⟩)

/-- A frame of a role that the part hears and that passes the interface's judgement reaches the owner (R170). -/
theorem takeFrame_handed {code : Byte} {addr : BitVec 7} {p : List Byte} {s : State} {r : Role}
    (owner : Role → State → State) (h : s.Hears addr r) (hj : judge code.toNat r p s.starting = none) :
    takeFrame code addr p owner s = owner r (handedOver r code s) := by
  unfold takeFrame
  simp [h.1, h.2.1, h.2.2, hj]

/-- A frame that the interface refuses is answered, and no owner sees it (R170). -/
theorem takeFrame_refused {code : Byte} {addr : BitVec 7} {p : List Byte} {s : State} {r : Role} {res : ResultCode}
    (owner : Role → State → State) (h : s.Hears addr r) (hj : judge code.toNat r p s.starting = some res) :
    takeFrame code addr p owner s = answer r code res s := by
  unfold takeFrame
  simp [h.1, h.2.1, h.2.2, hj]

@[simp] theorem handedOver_resetLine (r : Role) (c : Byte) (s : State) : (handedOver r c s).resetLine = s.resetLine :=
  caughtUp_resetLine s

@[simp] theorem handedOver_clock (r : Role) (c : Byte) (s : State) : (handedOver r c s).clock = s.clock :=
  caughtUp_clock s

@[simp] theorem handedOver_blockDue (r : Role) (c : Byte) (s : State) : (handedOver r c s).blockDue = s.blockDue :=
  caughtUp_blockDue s

@[simp] theorem handedOver_mem (r : Role) (c : Byte) (s : State) : (handedOver r c s).mem = s.mem :=
  caughtUp_mem s

@[simp] theorem handedOver_pagesA (r : Role) (c : Byte) (s : State) : (handedOver r c s).pagesA = s.pagesA :=
  caughtUp_pagesA s

@[simp] theorem handedOver_pagesB (r : Role) (c : Byte) (s : State) : (handedOver r c s).pagesB = s.pagesB :=
  caughtUp_pagesB s

@[simp] theorem handedOver_pagesD (r : Role) (c : Byte) (s : State) : (handedOver r c s).pagesD = s.pagesD :=
  caughtUp_pagesD s

@[simp] theorem handedOver_scene (r : Role) (c : Byte) (s : State) : (handedOver r c s).scene = s.scene :=
  caughtUp_scene s

@[simp] theorem handedOver_outs (r : Role) (c : Byte) (s : State) : (handedOver r c s).outs = s.outs :=
  caughtUp_outs s

@[simp] theorem handedOver_groups (r : Role) (c : Byte) (s : State) : (handedOver r c s).groups = s.groups :=
  caughtUp_groups s

@[simp] theorem handedOver_gcMute (r : Role) (c : Byte) (s : State) : (handedOver r c s).gcMute = s.gcMute :=
  caughtUp_gcMute s

@[simp] theorem handedOver_muteLast (r : Role) (c : Byte) (s : State) : (handedOver r c s).muteLast = s.muteLast :=
  caughtUp_muteLast s

@[simp] theorem handedOver_muteAccepted (r : Role) (c : Byte) (s : State) : (handedOver r c s).muteAccepted = s.muteAccepted :=
  caughtUp_muteAccepted s

@[simp] theorem handedOver_mutePin (r : Role) (c : Byte) (s : State) : (handedOver r c s).mutePin = s.mutePin :=
  caughtUp_mutePin s

@[simp] theorem handedOver_mclkStopped (r : Role) (c : Byte) (s : State) : (handedOver r c s).mclkStopped = s.mclkStopped :=
  caughtUp_mclkStopped s

@[simp] theorem handedOver_slots (r : Role) (c : Byte) (s : State) : (handedOver r c s).slots = s.slots :=
  caughtUp_slots s

@[simp] theorem handedOver_cues (r : Role) (c : Byte) (s : State) : (handedOver r c s).cues = s.cues :=
  caughtUp_cues s

@[simp] theorem handedOver_freeCount (r : Role) (c : Byte) (s : State) : (handedOver r c s).freeCount = s.freeCount :=
  caughtUp_freeCount s

@[simp] theorem handedOver_pending (r : Role) (c : Byte) (s : State) : (handedOver r c s).pending = s.pending :=
  caughtUp_pending s

@[simp] theorem handedOver_feedA (r : Role) (c : Byte) (s : State) : (handedOver r c s).feedA = (caughtUp s).feedA := rfl

@[simp] theorem handedOver_feedB (r : Role) (c : Byte) (s : State) : (handedOver r c s).feedB = (caughtUp s).feedB := rfl

@[simp] theorem handedOver_sel (r : Role) (c : Byte) (s : State) : (handedOver r c s).sel = (caughtUp s).sel := rfl

@[simp] theorem handedOver_notices (r : Role) (c : Byte) (s : State) : (handedOver r c s).notices = (caughtUp s).notices := rfl

@[simp] theorem handedOver_feed (r : Role) (c : Byte) (s : State) (x : Side) :
    (handedOver r c s).feed x = (caughtUp s).feed x := by
  cases x <;> rfl

@[simp] theorem handedOver_bus (r : Role) (c : Byte) (s : State) : (handedOver r c s).bus = s.bus.handedOver r c := by
  rw [handedOver, caughtUp_bus]

/-- A command in execution completed: its slot is FREE and its record holds the answer, whatever else its owner
changed (R171). -/
theorem complete_of_bus {r : Role} {code : Byte} {b : Bus} {t : State} (h : t.bus = b.handedOver r code)
    (res : ResultCode) (d : List Byte) :
    complete r res d t = { t with bus := b.answered r code res d } := by
  simp only [complete, h, Bus.answered, Bus.handedOver, PerRole.get_set_self, IntakeSlot.code, PerRole.set_set]

theorem State.Serves.starting {s : State} {addr : BitVec 7} {r : Role} (h : s.Serves addr r) : s.starting = false := by
  simp [State.starting, h.2]

/-- A frame that the part serves and whose code, rights and feed field are in order reaches the owner (R170). -/
theorem takeFrame_served {code : Byte} {addr : BitVec 7} {p : List Byte} {s : State} {r : Role}
    (owner : Role → State → State) (h : s.Serves addr r) (hj : judge code.toNat r p false = none) :
    takeFrame code addr p owner s = owner r (handedOver r code s) :=
  takeFrame_handed owner h.1 (h.starting ▸ hj)

@[simp] theorem lengthChecked_true (r : Role) (k : State → State) (s : State) : lengthChecked true r k s = k s := rfl

@[simp] theorem lengthChecked_false (r : Role) (k : State → State) (s : State) :
    lengthChecked false r k s = complete r .format [] s := rfl

/-- The owner checks the length, or acts (R190). -/
theorem lengthChecked_cases (ok : Bool) (r : Role) (k : State → State) (s : State) :
    lengthChecked ok r k s = k s ∨ lengthChecked ok r k s = complete r .format [] s := by
  cases ok
  · exact .inr rfl
  · exact .inl rfl

/-- A command handed over and completed leaves the state as it was caught up, but for the answer (R170, R171). -/
theorem complete_handedOver (r : Role) (code : Byte) (res : ResultCode) (d : List Byte) (s : State) :
    complete r res d (handedOver r code s) = (caughtUp s).answered r code res d := by
  simp only [complete, handedOver, State.answered, Bus.answered, Bus.handedOver, PerRole.get_set_self,
    IntakeSlot.code, PerRole.set_set]

/-- The same where the command's own effect changes the state beside the interface. -/
theorem complete_handedOver_of {r : Role} {code : Byte} {s t : State}
    (h : t.bus = (caughtUp s).bus.handedOver r code) (res : ResultCode) (d : List Byte) :
    complete r res d t = { t with bus := s.bus.answered r code res d } := by
  simp only [complete, h, Bus.answered, Bus.handedOver, PerRole.get_set_self, IntakeSlot.code, PerRole.set_set,
    caughtUp_bus]

/-- What an owner does to the plant is all that a frame does to it. -/
theorem takeFrame_plant {code : Byte} {addr : BitVec 7} {p : List Byte} {owner : Role → State → State} {s : State}
    (h : ∀ r t, (owner r t).plant = t.plant) : (takeFrame code addr p owner s).plant = s.plant := by
  rcases takeFrame_cases code addr p owner s with e | ⟨r, res, -, -, e⟩ | ⟨r, -, -, e⟩
  · rw [e]
  · rw [e]; rfl
  · rw [e, h, handedOver_plant]

theorem lengthChecked_plant {ok : Bool} {r : Role} {k : State → State} {s : State} (h : (k s).plant = s.plant) :
    (lengthChecked ok r k s).plant = s.plant := by
  rcases lengthChecked_cases ok r k s with e | e <;> rw [e]
  · exact h
  · rfl

/-- R168: the part acknowledges every byte of a frame exactly where its length byte is taken and no byte is surplus. -/
theorem frameAcks_all (code len : Byte) (p : List Byte) :
    (frameAcks (code :: len :: p)).all id = (lengthTaken len && decide (p.length ≤ len.toNat)) := by
  cases h : lengthTaken len
  · simp [frameAcks, h]
  · rw [Bool.eq_iff_iff]
    simp only [frameAcks, h, Bool.true_and, List.all_cons, id, List.all_map, List.all_eq_true, List.mem_range,
      Function.comp, decide_eq_true_eq]
    exact ⟨fun k => by rcases Nat.lt_or_ge len.toNat p.length with c | c; exact absurd (k _ c) (Nat.lt_irrefl _); exact c,
      fun k n hn => Nat.lt_of_lt_of_le hn k⟩

end Sys2Proof.Machine
end

