-- ==== Sys2Proof/Laws/Lane.lean ====
section
/-!
SUPPORT. What the bytes of a lane do (R15, R188): bytes without a sync word, the ten bytes of a block's beginning, the
bytes of a block that are due.
-/

namespace Sys2Proof.Machine

open Sys2Proof

/-! ## Receivers of a feed -/

@[simp] theorem Feed.rx_setRx_self (f : Feed) (l : Lane) (r : Receiver) : (f.setRx l r).rx l = r := by
  cases l <;> rfl

@[simp] theorem Feed.setRx_setRx (f : Feed) (l : Lane) (r q : Receiver) : (f.setRx l r).setRx l q = f.setRx l q := by
  cases l <;> rfl

@[simp] theorem Feed.setRx_rx (f : Feed) (l : Lane) : f.setRx l (f.rx l) = f := by
  cases l <;> rfl

@[simp] theorem Feed.setRx_setup (f : Feed) (l : Lane) (r : Receiver) : (f.setRx l r).setup = f.setup := by
  cases l <;> rfl

@[simp] theorem Feed.setRx_pace (f : Feed) (l : Lane) (r : Receiver) : (f.setRx l r).pace = f.pace := by
  cases l <;> rfl

/-- A block's beginning for the pace state leaves the receivers alone. -/
theorem Feed.setRx_paceBegun (f : Feed) (l k : Lane) (r : Receiver) :
    (f.paceBegun k).setRx l r = (f.setRx l r).paceBegun k := by
  cases l <;> by_cases h : f.pace.isOpen = true <;> simp [Feed.paceBegun, Feed.setRx, h]

@[simp] theorem Feed.rx_paceBegun (f : Feed) (l k : Lane) : (f.paceBegun k).rx l = f.rx l := by
  cases l <;> unfold Feed.paceBegun <;> split <;> rfl

@[simp] theorem State.onFeed_onFeed (s : State) (x : Side) (g h : Feed → Feed) :
    (s.onFeed x g).onFeed x h = s.onFeed x fun f => h (g f) := by
  cases x <;> rfl

@[simp] theorem State.onFeed_feed_self (s : State) (x : Side) (g : Feed → Feed) :
    (s.onFeed x g).feed x = g (s.feed x) := by
  cases x <;> rfl

/-- A change that leaves the feed as it is leaves the state as it is. -/
theorem State.onFeed_of_eq (s : State) (x : Side) (g : Feed → Feed) (h : g (s.feed x) = s.feed x) :
    s.onFeed x g = s := by
  cases x <;> simp only [State.onFeed, State.setFeed, h] <;> rfl

/-- Changes that agree on the feed as it is agree. -/
theorem State.onFeed_congr (s : State) (x : Side) (g h : Feed → Feed) (e : g (s.feed x) = h (s.feed x)) :
    s.onFeed x g = s.onFeed x h := by
  simp only [State.onFeed, e]

/-! ## Bytes in order -/

@[simp] theorem laneBytes_nil (x : Side) (l : Lane) (s : State) : laneBytes x l [] s = s := rfl

@[simp] theorem laneBytes_cons (x : Side) (l : Lane) (b : Byte) (bs : List Byte) (s : State) :
    laneBytes x l (b :: bs) s = laneBytes x l bs (laneByte x l b s) := rfl

/-- Bytes may arrive in one stretch or in two. -/
theorem laneBytes_append (x : Side) (l : Lane) (p q : List Byte) (s : State) :
    laneBytes x l (p ++ q) s = laneBytes x l q (laneBytes x l p s) := List.foldl_append

/-! ## Hunting -/

/-- Bytes in which no 6Bh stands are passed over (R15). -/
theorem laneBytes_hunting (x : Side) (l : Lane) (bs : List Byte) (s : State) (h : (s.feed x).rx l = .hunting)
    (k : ∀ b ∈ bs, b ≠ 0x6B) : laneBytes x l bs s = s := by
  induction bs with
  | nil => rfl
  | cons b bs ih =>
    have e : laneByte x l b s = s := by
      unfold laneByte
      rw [h]
      exact if_neg (k b (by simp))
    rw [laneBytes_cons, e]
    exact ih fun c hc => k c (by simp [hc])

/-! ## A block's beginning -/

/-- Eight header bytes spell the header (spec/12). -/
theorem headerOf_bytes (v : LaneHeader) :
    headerOf ([v.laneNo, v.count, v.flags] ++ be 5 v.stamp.toNat) = v := by
  have h := v.stamp.isLt
  have e : ofBe (be 5 v.stamp.toNat) = v.stamp.toNat := by
    simp only [be, ofBe, List.foldl_cons, List.foldl_nil, BitVec.toNat_ofNat, Nat.shiftRight_eq_div_pow]
    omega
  have d : ((([v.laneNo, v.count, v.flags] ++ be 5 v.stamp.toNat).drop 3).take 5) = be 5 v.stamp.toNat := rfl
  unfold headerOf
  rw [d, e]
  simp

/-- The header's last byte, on a receiver that holds the seven before it. -/
theorem laneByte_heading (x : Side) (l : Lane) (b : Byte) (s : State) (got : List Byte) (k : Nat)
    (h : (s.feed x).rx l = .heading got k) :
    laneByte x l b s =
      if got.length < 7 then s.onFeed x fun f => f.setRx l (.heading (got ++ [b]) 0)
      else laneHeaded x l (headerOf (got ++ [b])) s := by
  unfold laneByte
  rw [h]

/-- Header bytes, as long as the eighth has not come. -/
theorem laneBytes_heading (x : Side) (l : Lane) (bs : List Byte) (s : State) (got : List Byte)
    (h : (s.feed x).rx l = .heading got 0) (k : got.length + bs.length ≤ 7) :
    laneBytes x l bs s = s.onFeed x fun f => f.setRx l (.heading (got ++ bs) 0) := by
  induction bs generalizing s got with
  | nil =>
    rw [laneBytes_nil]
    refine (State.onFeed_of_eq _ _ _ ?_).symm
    rw [List.append_nil, ← h, Feed.setRx_rx]
  | cons b bs ih =>
    simp only [List.length_cons] at k
    rw [laneBytes_cons, laneByte_heading x l b s got 0 h, if_pos (by omega),
      ih _ (got ++ [b]) (by simp) (by simp; omega)]
    simp

/-- The sync word and the header, on a receiver that hunts (R15, R188). -/
theorem laneBytes_header (x : Side) (l : Lane) (v : LaneHeader) (s : State) (h : ((s.feed x).rx l).hunts = true) :
    laneBytes x l (headerBytes v) s =
      if v.count.toNat = 0 ∨ 48 < v.count.toNat then
        s.onFeed x fun f => ((f.setRx l .hunting).paceBegun l).paceEnded l
      else s.onFeed x fun f => (f.setRx l (.receiving v [] (bodyLen v) 0)).paceBegun l := by
  have e1 : laneByte x l 0x6B s = s.onFeed x fun f => f.setRx l .halfSync := by
    unfold laneByte
    cases r : (s.feed x).rx l with
    | hunting => simp
    | halfSync =>
      simp only [show ((0x6B : Byte) = 0xD2) = False by decide, if_false, if_true]
      refine (State.onFeed_of_eq _ _ _ ?_).symm
      rw [← r, Feed.setRx_rx]
    | heading g k => rw [r] at h; simp [Receiver.hunts] at h
    | receiving v b d k => rw [r] at h; simp [Receiver.hunts] at h
  have e2 : laneByte x l 0xD2 (s.onFeed x fun f => f.setRx l .halfSync) =
      s.onFeed x fun f => (f.setRx l (.heading [] 0)).paceBegun l := by
    unfold laneByte
    simp
  have e3 : headerBytes v =
      0x6B :: 0xD2 :: (([v.laneNo, v.count, v.flags] ++ be 5 v.stamp.toNat).take 7 ++
        [BitVec.ofNat 8 v.stamp.toNat]) := by
    simp [headerBytes, be]
  have e5 := laneBytes_heading x l (([v.laneNo, v.count, v.flags] ++ be 5 v.stamp.toNat).take 7)
    (s.onFeed x fun f => (f.setRx l (.heading [] 0)).paceBegun l) [] (by simp) (by simp [be])
  rw [e3, laneBytes_cons, laneBytes_cons, e1, e2, laneBytes_append, e5, laneBytes_cons,
    laneByte_heading x l _ _ (([v.laneNo, v.count, v.flags] ++ be 5 v.stamp.toNat).take 7) 0 (by simp),
    if_neg (by simp [be])]
  have e4 : headerOf (([v.laneNo, v.count, v.flags] ++ be 5 v.stamp.toNat).take 7 ++
      [BitVec.ofNat 8 v.stamp.toNat]) = v := by
    have := headerOf_bytes v
    simpa [be] using this
  rw [e4, laneBytes_nil]
  unfold laneHeaded
  split <;> simp [Feed.setRx_paceBegun]

/-- LANE_BLOCK_BEGIN, said whole (R15). -/
theorem laneBegin_eq (x : Side) (l : Lane) (v : LaneHeader) (s : State) :
    laneBegin x l v s =
      if s.resetLine || !(s.feed x).setup.uses l || !((s.feed x).rx l).hunts then s
      else if v.count.toNat = 0 ∨ 48 < v.count.toNat then
        s.onFeed x fun f => ((f.setRx l .hunting).paceBegun l).paceEnded l
      else s.onFeed x fun f => (f.setRx l (.receiving v [] (bodyLen v) 0)).paceBegun l := by
  unfold laneBegin laneArrive
  cases h : ((s.feed x).rx l).hunts
  · simp
  · by_cases g : (s.resetLine || !(s.feed x).setup.uses l) = true
    · simp [g]
    · simp only [Bool.not_true, Bool.or_false, g, if_true]
      exact laneBytes_header x l v s h

@[simp] theorem laneBegin_outside (x : Side) (l : Lane) (v : LaneHeader) (s : State) :
    (laneBegin x l v s).outside = s.outside := by
  rw [laneBegin_eq]; split <;> (try split) <;> simp

/-! ## The bytes due -/

/-- Bytes fewer than those due wait for the rest (R15). -/
theorem laneBytes_short (x : Side) (l : Lane) (bs : List Byte) (s : State) (v : LaneHeader) (body : List Byte)
    (due k : Nat) (h : (s.feed x).rx l = .receiving v body due k) (n : bs ≠ []) (e : bs.length < due) :
    laneBytes x l bs s = s.onFeed x fun f => f.setRx l (.receiving v (body ++ bs) (due - bs.length) 0) := by
  induction bs generalizing s body due k with
  | nil => exact absurd rfl n
  | cons b bs ih =>
    simp only [List.length_cons] at e
    have e1 : laneByte x l b s = s.onFeed x fun f => f.setRx l (.receiving v (body ++ [b]) (due - 1) 0) := by
      unfold laneByte
      rw [h]
      simp only []
      rw [if_pos (by omega)]
    rw [laneBytes_cons, e1]
    by_cases m : bs = []
    · subst m; rfl
    · rw [ih _ (body ++ [b]) (due - 1) 0 (by simp) m (by omega)]
      simp only [State.onFeed_onFeed, Feed.setRx_setRx, List.append_assoc, List.singleton_append, List.length_cons]
      rw [show due - 1 - bs.length = due - (bs.length + 1) by omega]

/-- The bytes due make the block arrive (R15). -/
theorem laneBytes_whole (x : Side) (l : Lane) (bs : List Byte) (s : State) (v : LaneHeader) (body : List Byte)
    (k : Nat) (h : (s.feed x).rx l = .receiving v body bs.length k) (n : bs ≠ []) :
    laneBytes x l bs s = laneArrived x l v (body ++ bs) s := by
  obtain ⟨p, b, rfl⟩ := (List.eq_nil_or_concat bs).resolve_left n
  simp only [List.concat_eq_append] at *
  rw [laneBytes_append]
  by_cases m : p = []
  · subst m
    simp only [List.nil_append, List.length_singleton] at *
    rw [laneBytes_nil, laneBytes_cons, laneBytes_nil]
    unfold laneByte
    rw [h]
    simp
  · rw [laneBytes_short x l p s v body _ k h m (by simp)]
    rw [laneBytes_cons, laneBytes_nil]
    unfold laneByte
    simp [laneArrived]

end Sys2Proof.Machine
end

