-- ==== Sys2Proof/Laws/Lists.lean ====
section
/-!
SUPPORT. The part's ordered lists: what an insertion in the cue list and in the active bank leaves.
-/

namespace Sys2Proof.Machine

open Sys2Proof

/-- A cue posted splits a list in trigger order: every cue before it has a trigger at or below its own, every cue
after it a later one (R155). -/
theorem insertCue_split (c : Cue) {cues : List Cue} (h : cues.Pairwise fun d e => d.trigger ≤ e.trigger) :
    ∃ before after, cues = before ++ after ∧ insertCue c cues = before ++ c :: after ∧
      before.length = cueIndex c.trigger cues ∧ (∀ d ∈ before, d.trigger ≤ c.trigger) ∧
      ∀ d ∈ after, c.trigger < d.trigger := by
  induction cues with
  | nil => exact ⟨[], [], rfl, rfl, rfl, by simp, by simp⟩
  | cons x xs ih =>
    rw [List.pairwise_cons] at h
    by_cases hx : x.trigger ≤ c.trigger
    · obtain ⟨before, after, h1, h2, h3, h4, h5⟩ := ih h.2
      refine ⟨x :: before, after, by simp [h1], by simp [insertCue, hx, h2], ?_, ?_, h5⟩
      · simp only [List.length_cons, h3, cueIndex]
        rw [List.filter_cons, if_pos (by simpa using hx), List.length_cons]
      · exact fun d hd => (List.mem_cons.1 hd).elim (fun e => e ▸ hx) (h4 d)
    · have hlt : ∀ d ∈ x :: xs, c.trigger < d.trigger := fun d hd => by
        rcases List.mem_cons.1 hd with rfl | hd
        · omega
        · have := h.1 d hd; omega
      refine ⟨[], x :: xs, rfl, by simp [insertCue, hx], ?_, by simp, hlt⟩
      simp only [List.length_nil, cueIndex]
      rw [List.filter_eq_nil_iff.2 fun d hd => by simpa using hlt d hd]
      rfl

/-- A cue posted keeps the trigger order (R155). -/
theorem insertCue_sorted (c : Cue) {cues : List Cue} (h : cues.Pairwise fun d e => d.trigger ≤ e.trigger) :
    (insertCue c cues).Pairwise fun d e => d.trigger ≤ e.trigger := by
  obtain ⟨before, after, h1, h2, -, h4, h5⟩ := insertCue_split c h
  rw [h1, List.pairwise_append] at h
  rw [h2, List.pairwise_append, List.pairwise_cons]
  refine ⟨h.1, ⟨fun d hd => (h5 d hd).le, h.2.1⟩, fun d hd e he => ?_⟩
  rcases List.mem_cons.1 he with rfl | he
  · exact h4 d hd
  · exact h.2.2 d hd e he

/-- A cue posted makes the list one longer. -/
theorem insertCue_length (c : Cue) (cues : List Cue) : (insertCue c cues).length = cues.length + 1 := by
  induction cues with
  | nil => rfl
  | cons x xs ih => simp only [insertCue]; split <;> simp [ih]

/-- The routes of a bank after an insertion: the new one, and the old ones. -/
theorem insertRoute_mem {e x : ActiveRoute} {bank : List ActiveRoute} (h : x ∈ insertRoute e bank) :
    x = e ∨ x ∈ bank := by
  induction bank with
  | nil => simpa [insertRoute] using h
  | cons y ys ih =>
    simp only [insertRoute] at h
    split at h
    · simpa using h
    · split at h
      · rcases List.mem_cons.1 h with h | h
        · exact .inl h
        · exact .inr (by simp [h])
      · rcases List.mem_cons.1 h with h | h
        · exact .inr (by simp [h])
        · exact (ih h).imp id fun h => by simp [h]

/-- An insertion keeps the order of the keys (R110). -/
theorem insertRoute_pairwise {e : ActiveRoute} {bank : List ActiveRoute}
    (h : bank.Pairwise fun x y => x.key < y.key) : (insertRoute e bank).Pairwise fun x y => x.key < y.key := by
  induction bank with
  | nil => simp [insertRoute]
  | cons y ys ih =>
    have hy := List.pairwise_cons.1 h
    simp only [insertRoute]
    split
    · refine List.pairwise_cons.2 ⟨fun d hd => ?_, h⟩
      rcases List.mem_cons.1 hd with rfl | hd
      · assumption
      · exact lt_trans ‹_› (hy.1 d hd)
    · split
      · exact List.pairwise_cons.2 ⟨fun d hd => by have := hy.1 d hd; omega, hy.2⟩
      · refine List.pairwise_cons.2 ⟨fun d hd => ?_, ih hy.2⟩
        rcases insertRoute_mem hd with rfl | hd
        · omega
        · exact hy.1 d hd

/-- An insertion under a new key keeps every route and adds one (R110). -/
theorem insertRoute_new {e : ActiveRoute} {bank : List ActiveRoute} (h : ∀ x ∈ bank, x.key ≠ e.key) :
    (insertRoute e bank).Perm (e :: bank) := by
  induction bank with
  | nil => exact List.Perm.refl _
  | cons y ys ih =>
    simp only [insertRoute]
    split
    · exact List.Perm.refl _
    · split
      · exact absurd (by omega) (h y (by simp))
      · exact ((ih fun x hx => h x (by simp [hx])).cons y).trans (List.Perm.swap e y ys)

end Sys2Proof.Machine
end

