-- ==== Sys2Proof/Laws/Memory.lean ====
section
/-!
SUPPORT. Sample memory: what each operation leaves in each word, and that every one of them keeps the list in its one
canonical form.
-/

namespace Sys2Proof.Machine

open Sys2Proof

/-- The canonical form as a property of the list: addresses strictly rising, no entry equal to the default. -/
theorem Memory.wf_iff (m : Memory) :
    Memory.wf m = true ↔ (m.Pairwise fun c d => c.1 < d.1) ∧ ∀ c ∈ m, c.2 ≠ defaultWord := by
  induction m with
  | nil => simp [Memory.wf]
  | cons c rest ih =>
    cases rest with
    | nil => simp [Memory.wf]
    | cons d rest =>
      simp only [Memory.wf, Bool.and_eq_true, decide_eq_true_eq, bne_iff_ne, ne_eq, ih, List.pairwise_cons,
        List.mem_cons, forall_eq_or_imp]
      constructor
      · rintro ⟨⟨h1, h2⟩, ⟨h3, h4⟩, h5, h6⟩
        exact ⟨⟨⟨h1, fun e he => h1.trans (h3 e he)⟩, h3, h4⟩, h2, h5, h6⟩
      · rintro ⟨⟨⟨h1, -⟩, h3, h4⟩, h2, h5, h6⟩
        exact ⟨⟨h1, h2⟩, ⟨h3, h4⟩, h5, h6⟩

/-- Below every listed address a word reads as the default. -/
theorem Memory.read_below {m : Memory} {a : Nat} (h : ∀ c ∈ m, a < c.1) : Memory.read m a = defaultWord := by
  induction m with
  | nil => rfl
  | cons c rest ih =>
    have := h c (by simp)
    rw [Memory.read, if_neg (by omega)]
    exact ih fun d hd => h d (by simp [hd])

/-- An address of the new list is the one put or an old one. -/
theorem Memory.put_mem {m : Memory} {a : Nat} {w : MemWord} {c : Nat × MemWord} (h : c ∈ m.put a w) :
    c = (a, w) ∧ w ≠ defaultWord ∨ c ∈ m := by
  induction m with
  | nil => simp only [Memory.put] at h; split at h <;> simp_all
  | cons d rest ih =>
    simp only [Memory.put] at h
    split at h
    · split at h <;> simp_all
    · split at h
      · (split at h <;> simp_all); tauto
      · rcases List.mem_cons.1 h with rfl | h
        · simp
        · rcases ih h with h | h
          · exact .inl h
          · exact .inr (by simp [h])

/-- A word put keeps the canonical form. -/
theorem Memory.put_wf {m : Memory} (a : Nat) (w : MemWord) (h : Memory.wf m = true) :
    Memory.wf (m.put a w) = true := by
  rw [Memory.wf_iff] at h ⊢
  refine ⟨?_, fun c hc => ?_⟩
  · induction m with
    | nil => simp only [Memory.put]; split <;> simp
    | cons d rest ih =>
      obtain ⟨hp, hn⟩ := h
      rw [List.pairwise_cons] at hp
      have ih := ih ⟨hp.2, fun c hc => hn c (by simp [hc])⟩
      simp only [Memory.put]
      split
      · split
        · exact List.pairwise_cons.2 hp
        · exact List.pairwise_cons.2 ⟨fun c hc => by
            rcases List.mem_cons.1 hc with rfl | hc
            · assumption
            · exact lt_trans ‹_› (hp.1 c hc), List.pairwise_cons.2 hp⟩
      · split
        · subst a
          split
          · exact hp.2
          · exact List.pairwise_cons.2 hp
        · refine List.pairwise_cons.2 ⟨fun c hc => ?_, ih⟩
          rcases Memory.put_mem hc with ⟨rfl, -⟩ | hc
          · show d.1 < a
            omega
          · exact hp.1 c hc
  · rcases Memory.put_mem hc with ⟨rfl, hw⟩ | hc
    · exact hw
    · exact h.2 c hc

/-- A word put is read back, and every other word is as it was. -/
theorem Memory.read_put {m : Memory} (a b : Nat) (w : MemWord) (h : Memory.wf m = true) :
    (m.put a w).read b = if b = a then w else m.read b := by
  rw [Memory.wf_iff] at h
  induction m with
  | nil =>
    simp only [Memory.put]
    split
    · simp_all [Memory.read]
    · simp [Memory.read, eq_comm]
  | cons d rest ih =>
    obtain ⟨hp, hn⟩ := h
    rw [List.pairwise_cons] at hp
    have ih := ih ⟨hp.2, fun c hc => hn c (by simp [hc])⟩
    obtain ⟨e, v⟩ := d
    simp only [Memory.put]
    split
    · rename_i hlt
      split
      · by_cases hb : b = a
        · subst hb
          rw [if_pos rfl, Memory.read_below fun c hc => by
            rcases List.mem_cons.1 hc with rfl | hc
            · exact hlt
            · exact lt_trans hlt (hp.1 c hc)]
          simp_all
        · simp [hb]
      · by_cases hb : a = b
        · subst hb; simp [Memory.read]
        · simp [Memory.read, hb, Ne.symm hb]
    · split
      · rename_i _ hab
        subst hab
        split
        · by_cases hb : b = a
          · subst hb
            rw [if_pos rfl, Memory.read_below hp.1]
            simp_all
          · simp [Memory.read, hb, Ne.symm hb]
        · by_cases hb : a = b
          · subst hb; simp [Memory.read]
          · simp [Memory.read, hb, Ne.symm hb]
      · by_cases hb : e = b
        · subst hb
          rw [if_neg (by omega)]
          simp [Memory.read]
        · simp [Memory.read, hb, ih]

/-- A sample written keeps the canonical form. -/
theorem Memory.write_wf {m : Memory} (a : Nat) (v : Sample) (h : Memory.wf m = true) :
    Memory.wf (m.write a v) = true := Memory.put_wf a _ h

/-- A sample written is read back with good parity, and every other word is as it was (R36). -/
theorem Memory.read_write {m : Memory} (a b : Nat) (v : Sample) (h : Memory.wf m = true) :
    (m.write a v).read b = if b = a then { sample := v, good := true } else m.read b := Memory.read_put a b _ h

/-- A parity fault keeps the canonical form. -/
theorem Memory.spoil_wf {m : Memory} (a : Nat) (h : Memory.wf m = true) : Memory.wf (m.spoil a) = true :=
  Memory.put_wf a _ h

/-- A parity fault leaves the sample and every other word (R36). -/
theorem Memory.read_spoil {m : Memory} (a b : Nat) (h : Memory.wf m = true) :
    (m.spoil a).read b = if b = a then { sample := (m.read a).sample, good := false } else m.read b :=
  Memory.read_put a b _ h

/-- The scrub of a page keeps the canonical form. -/
theorem Memory.scrub_wf {m : Memory} (page : Nat) (h : Memory.wf m = true) : Memory.wf (m.scrub page) = true := by
  rw [Memory.wf_iff] at h ⊢
  exact ⟨h.1.filter _, fun c hc => h.2 c (List.mem_filter.1 hc).1⟩

/-- A scrubbed page reads 0 with good parity, and every other word is as it was (R12). -/
theorem Memory.read_scrub (m : Memory) (page a : Nat) :
    (m.scrub page).read a = if a / 1024 = page then defaultWord else m.read a := by
  induction m with
  | nil => simp [Memory.scrub, Memory.read]
  | cons c rest ih =>
    obtain ⟨b, w⟩ := c
    have hs : Memory.scrub ((b, w) :: rest) page =
        if b / 1024 = page then Memory.scrub rest page else (b, w) :: Memory.scrub rest page := by
      by_cases hb : b / 1024 = page <;> simp [Memory.scrub, Config.pageWords, hb]
    rw [hs]
    by_cases hb : b / 1024 = page
    · rw [if_pos hb, ih]
      by_cases ha : b = a
      · subst ha; simp [hb]
      · simp [Memory.read, ha]
    · rw [if_neg hb]
      by_cases ha : b = a
      · subst ha; simp [Memory.read, hb]
      · simp [Memory.read, ha, ih]

/-- A half's samples written keep the canonical form. -/
theorem writeSamples_wf (addr : Nat → Nat) (bs : List Byte) (k : Nat) (m : Memory) (h : Memory.wf m = true) :
    Memory.wf (writeSamples addr bs k m) = true := by
  fun_induction writeSamples addr bs k m with
  | case1 a b c rest k m ih => exact ih (Memory.write_wf _ _ h)
  | case2 => exact h

/-- One delay line at one house sample keeps the canonical form. -/
theorem lineStep_wf (passing : List Access) (cap base out delay writeIdx valid : Nat) (y : Int) (m : Memory)
    (h : Memory.wf m = true) : Memory.wf (lineStep passing cap base out delay writeIdx valid y m).mem = true := by
  unfold lineStep
  split
  · exact h
  · exact Memory.write_wf _ _ h

/-- The output stage's house sample keeps the canonical form. -/
theorem runStage_wf (passing : List Access) (groups : Byte) (house : Bool) (cap base : Nat) (sums : Nat → Int × Bool)
    (os : List OutRec) (k : Nat) (m : Memory) (h : Memory.wf m = true) :
    Memory.wf (runStage passing groups house cap base sums os k m).mem = true := by
  induction os generalizing k m with
  | nil => exact h
  | cons o os ih => exact ih _ _ (lineStep_wf _ _ _ _ _ _ _ _ _ h)

/-- Memory after power-on has the canonical form. -/
theorem powerOn_mem_wf (strap : Bool) : Memory.wf (powerOnState strap).mem = true := rfl

end Sys2Proof.Machine
end

