-- ==== Sys2Proof/Laws/Plant.lean ====
section
/-!
SUPPORT. The commands and events that change only feeds, resamplers, selector, notices and interface leave the plant:
the clock, sample memory, partition, scene store, output stage and cue list.
-/

set_option linter.unusedTactic false
set_option linter.unreachableTactic false

namespace Sys2Proof.Machine

open Sys2Proof

theorem State.resetLine_of_plant {s t : State} (h : t.plant = s.plant) : t.resetLine = s.resetLine := by
  have k := congrArg State.resetLine h
  exact k

theorem State.clock_of_plant {s t : State} (h : t.plant = s.plant) : t.clock = s.clock := by
  have k := congrArg State.clock h
  exact k

theorem State.blockDue_of_plant {s t : State} (h : t.plant = s.plant) : t.blockDue = s.blockDue := by
  have k := congrArg State.blockDue h
  exact k

theorem State.mem_of_plant {s t : State} (h : t.plant = s.plant) : t.mem = s.mem := by
  have k := congrArg State.mem h
  exact k

theorem State.pagesA_of_plant {s t : State} (h : t.plant = s.plant) : t.pagesA = s.pagesA := by
  have k := congrArg State.pagesA h
  exact k

theorem State.pagesB_of_plant {s t : State} (h : t.plant = s.plant) : t.pagesB = s.pagesB := by
  have k := congrArg State.pagesB h
  exact k

theorem State.pagesD_of_plant {s t : State} (h : t.plant = s.plant) : t.pagesD = s.pagesD := by
  have k := congrArg State.pagesD h
  exact k

theorem State.scene_of_plant {s t : State} (h : t.plant = s.plant) : t.scene = s.scene := by
  have k := congrArg State.scene h
  exact k

theorem State.outs_of_plant {s t : State} (h : t.plant = s.plant) : t.outs = s.outs := by
  have k := congrArg State.outs h
  exact k

theorem State.groups_of_plant {s t : State} (h : t.plant = s.plant) : t.groups = s.groups := by
  have k := congrArg State.groups h
  exact k

theorem State.gcMute_of_plant {s t : State} (h : t.plant = s.plant) : t.gcMute = s.gcMute := by
  have k := congrArg State.gcMute h
  exact k

theorem State.muteLast_of_plant {s t : State} (h : t.plant = s.plant) : t.muteLast = s.muteLast := by
  have k := congrArg State.muteLast h
  exact k

theorem State.muteAccepted_of_plant {s t : State} (h : t.plant = s.plant) : t.muteAccepted = s.muteAccepted := by
  have k := congrArg State.muteAccepted h
  exact k

theorem State.mutePin_of_plant {s t : State} (h : t.plant = s.plant) : t.mutePin = s.mutePin := by
  have k := congrArg State.mutePin h
  exact k

theorem State.mclkStopped_of_plant {s t : State} (h : t.plant = s.plant) : t.mclkStopped = s.mclkStopped := by
  have k := congrArg State.mclkStopped h
  exact k

theorem State.slots_of_plant {s t : State} (h : t.plant = s.plant) : t.slots = s.slots := by
  have k := congrArg State.slots h
  exact k

theorem State.cues_of_plant {s t : State} (h : t.plant = s.plant) : t.cues = s.cues := by
  have k := congrArg State.cues h
  exact k

@[simp] theorem State.onFeed_plant (s : State) (x : Side) (g : Feed → Feed) :
    (s.onFeed x g).plant = s.plant := by
  exact State.plant_of_outside (State.onFeed_outside s x g)

@[simp] theorem State.setFeed_plant (s : State) (x : Side) (f : Feed) :
    (s.setFeed x f).plant = s.plant := by
  exact State.plant_of_outside (State.setFeed_outside s x f)

@[simp] theorem State.onSel_plant (s : State) (g : Selector → Selector) :
    (s.onSel g).plant = s.plant := by
  exact State.plant_of_outside (State.onSel_outside s g)

@[simp] theorem raise_plant (k : Kind) (d : List Byte) (s : State) :
    (raise k d s).plant = s.plant := by
  exact State.plant_of_outside (raise_outside k d s)

@[simp] theorem raiseIf_plant (c : Bool) (k : Kind) (d : List Byte) (s : State) :
    (raiseIf c k d s).plant = s.plant := by
  exact State.plant_of_outside (raiseIf_outside c k d s)

@[simp] theorem completeFeed_plant (x : Side) (reason : Reason) (s : State) :
    (completeFeed x reason s).plant = s.plant := by
  exact State.plant_of_outside (completeFeed_outside x reason s)

@[simp] theorem laneBegin_plant (x : Side) (l : Lane) (v : LaneHeader) (s : State) :
    (laneBegin x l v s).plant = s.plant := by
  exact State.plant_of_outside (laneBegin_outside x l v s)

@[simp] theorem laneAbandon_plant (x : Side) (l : Lane) (s : State) :
    (laneAbandon x l s).plant = s.plant := by
  exact State.plant_of_outside (laneAbandon_outside x l s)

@[simp] theorem paceExpiry_plant (x : Side) (s : State) :
    (paceExpiry x s).plant = s.plant := by
  exact State.plant_of_outside (paceExpiry_outside x s)

@[simp] theorem burstExpiry_plant (x : Side) (s : State) :
    (burstExpiry x s).plant = s.plant := by
  exact State.plant_of_outside (burstExpiry_outside x s)

@[simp] theorem watchClose_plant (x : Side) (s : State) :
    (watchClose x s).plant = s.plant := by
  exact State.plant_of_outside (watchClose_outside x s)

@[simp] theorem judgeAlignment_plant (s : State) :
    (judgeAlignment s).plant = s.plant := by
  exact State.plant_of_outside (judgeAlignment_outside s)

@[simp] theorem takePrimed_plant (s : State) :
    (takePrimed s).plant = s.plant := by
  exact State.plant_of_outside (takePrimed_outside s)

@[simp] theorem servoStep_plant (s : State) :
    (servoStep s).plant = s.plant := by
  exact State.plant_of_outside (servoStep_outside s)

@[simp] theorem noteUnderrun_plant (s : State) :
    (noteUnderrun s).plant = s.plant := by
  exact State.plant_of_outside (noteUnderrun_outside s)

@[simp] theorem inheritRatio_plant (s : State) :
    (inheritRatio s).plant = s.plant := by
  exact State.plant_of_outside (inheritRatio_outside s)

@[simp] theorem advancePositions_plant (s : State) :
    (advancePositions s).plant = s.plant := by
  exact State.plant_of_outside (advancePositions_outside s)

@[simp] theorem riseUnaligns_plant (s : State) :
    (riseUnaligns s).plant = s.plant := by
  exact State.plant_of_outside (riseUnaligns_outside s)

@[simp] theorem takeEnds_plant (s : State) :
    (takeEnds s).plant = s.plant := by
  exact State.plant_of_outside (takeEnds_outside s)

@[simp] theorem markFails_plant (es : List RingFail) (s : State) :
    (markFails es s).plant = s.plant := by
  exact State.plant_of_outside (markFails_outside es s)

@[simp] theorem skewCheck_plant (x : Side) (l : Lane) (a : Nat) (s : State) :
    (skewCheck x l a s).plant = s.plant := by
  exact State.plant_of_outside (skewCheck_outside x l a s)

@[simp] theorem placeSlot_plant (x : Side) (l : Lane) (t : Nat) (v : Bool) (s : State) :
    (placeSlot x l t v s).plant = s.plant := by
  exact State.plant_of_outside (placeSlot_outside x l t v s)

@[simp] theorem stopOnAir_plant (x : Side) (h : Bool) (s : State) :
    ((stopOnAir x h s).2).plant = s.plant := by
  exact State.plant_of_outside (stopOnAir_outside x h s)

@[simp] theorem onairSteps_plant (n : Nat) (s : State) :
    ((onairSteps n s).2).plant = s.plant := by
  exact State.plant_of_outside (onairSteps_outside n s)

@[simp] theorem transitionEnd_plant (s : State) :
    (transitionEnd s).plant = s.plant := by
  unfold transitionEnd; split <;> (try split) <;> (try split) <;> (try split) <;> (try split) <;> simp

@[simp] theorem stopTaken_plant (r : Role) (x : Side) (h : Bool) (s : State) :
    (stopTaken r x h s).plant = s.plant := by
  have k := stopOnAir_plant x h s
  unfold stopTaken
  split
  · split
    · exact k
    · simp
  · simp

@[simp] theorem onairTaken_plant (f : Byte) (s : State) :
    (onairTaken f s).plant = s.plant := by
  unfold onairTaken
  have h := onairSteps_plant f.toNat s
  split
  rename_i e
  rw [e] at h
  simpa using h

@[simp] theorem orderTaken_plant (o : AwaitedOrder) (s : State) :
    (orderTaken o s).plant = s.plant := by
  cases o <;> simp [orderTaken]

@[simp] theorem turnTake_plant (s : State) :
    (turnTake s).plant = s.plant := by
  unfold turnTake; split <;> simp

@[simp] theorem stopTake_plant (r : Role) (s : State) :
    (stopTake r s).plant = s.plant := by
  unfold stopTake; split <;> (try split) <;> (try split) <;> simp

@[simp] theorem onairTake_plant (s : State) :
    (onairTake s).plant = s.plant := by
  unfold onairTake; split <;> (try split) <;> simp

@[simp] theorem flushComplete_plant (s : State) :
    (flushComplete s).plant = s.plant := by
  unfold flushComplete; split; · rfl
  · split <;> rfl

@[simp] theorem feedset_plant (p : List Byte) (x : Side) (r : Role) (s : State) :
    (feedset p x r s).plant = s.plant := by
  unfold feedset; split <;> (try split) <;> (try split) <;> (try split) <;> (try split) <;> simp

@[simp] theorem play_plant (v : PlayParams) (x : Side) (r : Role) (s : State) :
    (play v x r s).plant = s.plant := by
  unfold play; split <;> (try split) <;> (try split) <;> (try split) <;> (try split) <;> simp

@[simp] theorem awaitStop_plant (x : Side) (h : Bool) (r : Role) (s : State) :
    (awaitStop x h r s).plant = s.plant := by
  rfl

@[simp] theorem stopFeed_plant (x : Side) (h : Bool) (r : Role) (s : State) :
    (stopFeed x h r s).plant = s.plant := by
  unfold stopFeed; split <;> (try split) <;> (try split) <;> (try split) <;> (try split) <;> simp

@[simp] theorem stop_plant (p : List Byte) (x : Side) (r : Role) (s : State) :
    (stop p x r s).plant = s.plant := by
  unfold stop; split <;> (try split) <;> (try split) <;> (try split) <;> (try split) <;> simp

@[simp] theorem feedack_plant (x : Side) (r : Role) (s : State) :
    (feedack x r s).plant = s.plant := by
  unfold feedack; split <;> (try split) <;> (try split) <;> (try split) <;> (try split) <;> simp

@[simp] theorem feedstat_plant (x : Side) (r : Role) (s : State) :
    (feedstat x r s).plant = s.plant := by
  rfl

@[simp] theorem onair_plant (p : List Byte) (s : State) :
    (onair p s).plant = s.plant := by
  rfl

@[simp] theorem policy_plant (p : List Byte) (r : Role) (s : State) :
    (policy p r s).plant = s.plant := by
  unfold policy; split <;> (try split) <;> (try split) <;> (try split) <;> (try split) <;> simp

@[simp] theorem scnstat_plant (p : List Byte) (r : Role) (s : State) :
    (scnstat p r s).plant = s.plant := by
  unfold scnstat; split <;> (try split) <;> (try split) <;> (try split) <;> (try split) <;> simp

@[simp] theorem cuestat_plant (r : Role) (s : State) :
    (cuestat r s).plant = s.plant := by
  rfl

@[simp] theorem ident_plant (r : Role) (s : State) :
    (ident r s).plant = s.plant := by
  rfl

@[simp] theorem notefetch_plant (r : Role) (s : State) :
    (notefetch r s).plant = s.plant := by
  unfold notefetch; split <;> (try split) <;> (try split) <;> (try split) <;> (try split) <;> rfl

@[simp] theorem progstat_plant (r : Role) (s : State) :
    (progstat r s).plant = s.plant := by
  rfl

@[simp] theorem noteroute_plant (ps : List (Nat × Nat)) (r : Role) (s : State) :
    (noteroute ps r s).plant = s.plant := by
  unfold noteroute; split <;> rfl

@[simp] theorem callock_plant (r : Role) (s : State) :
    (callock r s).plant = s.plant := by
  unfold callock; split <;> rfl

@[simp] theorem expiries_plant (s : State) :
    (expiries s).plant = s.plant := by
  simp [expiries]

@[simp] theorem abandons_plant (s : State) :
    (abandons s).plant = s.plant := by
  simp [abandons]

/-- A fold of steps that leave the plant alone leaves it alone. -/
theorem foldl_plant {α : Type} (f : State → α → State) (h : ∀ s a, (f s a).plant = s.plant) (l : List α)
    (s : State) : (l.foldl f s).plant = s.plant := by
  induction l generalizing s with
  | nil => rfl
  | cons a l ih => rw [List.foldl_cons, ih, h]

@[simp] theorem dueOrders_plant (s : State) :
    (dueOrders s).plant = s.plant := by
  exact foldl_plant _ (fun u _ => by simp) _ s

@[simp] theorem programStep_plant (va vb : List ReadResult) (s : State) :
    (programStep va vb s).plant = s.plant := by
  simp [programStep]

@[simp] theorem badFrame_plant (c : Byte) (a : BitVec 7) (s : State) :
    (badFrame c a s).plant = s.plant := by
  unfold badFrame; split <;> (try split) <;> (try split) <;> (try split) <;> (try split) <;> simp

@[simp] theorem abandonFrame_plant (w : Nat) (d : Direction) (b : List Byte) (s : State) :
    (abandonFrame w d b s).plant = s.plant := by
  rfl

@[simp] theorem orderDropped_plant (o : AwaitedOrder) (s : State) :
    (orderDropped o s).plant = s.plant := by
  cases o <;> rfl

@[simp] theorem answerAwaiting_plant (s : State) :
    (answerAwaiting s).plant = s.plant := by
  exact foldl_plant _ (fun u e => by simp) _ s

end Sys2Proof.Machine
end

