-- ==== Sys2Proof/Laws/Scene.lean ====
section
/-!
SUPPORT. The scene store's shared operations, once each: entries put in key order, the entries of a payload, the
first item that fails a test.
-/

namespace Sys2Proof.Machine

open Sys2Proof

/-! ## Bytes -/

@[simp] theorem be_zero (n : Nat) : be 0 n = [] := rfl

theorem be_one (n : Nat) : be 1 n = [BitVec.ofNat 8 n] := by simp [be]

@[simp] theorem be_length (k n : Nat) : (be k n).length = k := by
  induction k with
  | zero => rfl
  | succ k ih => simp [be, ih]

theorem ofBe_append (a : List Byte) (b : Byte) : ofBe (a ++ [b]) = ofBe a * 256 + b.toNat := by
  simp [ofBe, List.foldl_append]

/-- Bytes spelled from a number are read back as that number (spec/12). -/
theorem ofBe_be (k n : Nat) : ofBe (be k n) = n % 256 ^ k := by
  have acc : ∀ (k n a : Nat),
      (be k n).foldl (fun acc (b : Byte) => acc * 256 + b.toNat) a = a * 256 ^ k + n % 256 ^ k := by
    intro k
    induction k with
    | zero => intro n a; simp [be, Nat.mod_one]
    | succ k ih =>
      intro n a
      rw [be, List.foldl_cons, ih, BitVec.toNat_ofNat, Nat.shiftRight_eq_div_pow, Nat.pow_mul]
      have h : n % 256 ^ (k + 1) = 256 ^ k * (n / 256 ^ k % 256) + n % 256 ^ k := by
        rw [Nat.pow_succ, Nat.mod_mul, Nat.add_comm]
      norm_num at *
      rw [h]; ring
  have := acc k n 0
  simpa [ofBe] using this

/-! ## Entries in key order -/

theorem insertEntry_mem {e x : RouteEntry} {bank : List RouteEntry} (h : x ∈ insertEntry e bank) :
    x = e ∨ x ∈ bank := by
  induction bank with
  | nil => exact .inl (by simpa [insertEntry] using h)
  | cons y ys ih =>
    simp only [insertEntry] at h
    split at h
    · exact List.mem_cons.1 h
    · split at h
      · rcases List.mem_cons.1 h with h | h
        · exact .inl h
        · exact .inr (List.mem_cons_of_mem _ h)
      · rcases List.mem_cons.1 h with h | h
        · exact .inr (h ▸ List.mem_cons_self)
        · exact (ih h).imp_right (List.mem_cons_of_mem _)

/-- An entry joins in key order (R110). -/
theorem insertEntry_pairwise {e : RouteEntry} {bank : List RouteEntry}
    (h : bank.Pairwise fun x y => x.key < y.key) : (insertEntry e bank).Pairwise fun x y => x.key < y.key := by
  induction bank with
  | nil => simp [insertEntry]
  | cons y ys ih =>
    simp only [insertEntry]
    rw [List.pairwise_cons] at h
    split
    · rw [List.pairwise_cons, List.pairwise_cons]
      refine ⟨fun z hz => ?_, h⟩
      rcases List.mem_cons.1 hz with rfl | hz
      · assumption
      · exact lt_trans ‹_› (h.1 z hz)
    · split
      · rw [List.pairwise_cons]
        exact ⟨fun z hz => by have := h.1 z hz; omega, h.2⟩
      · rw [List.pairwise_cons]
        refine ⟨fun z hz => ?_, ih h.2⟩
        rcases insertEntry_mem hz with rfl | hz
        · omega
        · exact h.1 z hz

/-- The entry that a bank holds under a key after another has joined (R115). -/
theorem insertEntry_find {e : RouteEntry} {bank : List RouteEntry} (key : Nat)
    (h : bank.Pairwise fun x y => x.key < y.key) :
    ((insertEntry e bank).find? fun x => x.key == key) =
      if e.key = key then some e else bank.find? fun x => x.key == key := by
  have hit : ∀ {x : RouteEntry} {l : List RouteEntry}, x.key = key → ((x :: l).find? fun x => x.key == key) = some x :=
    fun hx => List.find?_cons_of_pos (by simpa using hx)
  have miss : ∀ {x : RouteEntry} {l : List RouteEntry}, ¬ x.key = key →
      ((x :: l).find? fun x => x.key == key) = l.find? fun x => x.key == key :=
    fun hx => List.find?_cons_of_neg (by simpa using hx)
  induction bank with
  | nil =>
    by_cases hk : e.key = key
    · rw [if_pos hk]; exact hit hk
    · rw [if_neg hk]; exact miss hk
  | cons y ys ih =>
    rw [List.pairwise_cons] at h
    simp only [insertEntry]
    split
    · by_cases hk : e.key = key
      · rw [if_pos hk]; exact hit hk
      · rw [if_neg hk]; exact miss hk
    · split
      · by_cases hk : e.key = key
        · rw [if_pos hk]; exact hit hk
        · rw [if_neg hk, miss hk, miss (by omega)]
      · by_cases hy : y.key = key
        · rw [if_neg (by omega), hit hy, hit hy]
        · rw [miss hy, miss hy, ih h.2]

theorem insertEntry_length (e : RouteEntry) (bank : List RouteEntry)
    (h : bank.Pairwise fun x y => x.key < y.key) :
    (insertEntry e bank).length = bank.length + if holdsKey bank e.key then 0 else 1 := by
  induction bank with
  | nil => simp [insertEntry, holdsKey]
  | cons y ys ih =>
    rw [List.pairwise_cons] at h
    have hys : e.key < y.key → holdsKey ys e.key = false := by
      intro hlt
      simp only [holdsKey, List.any_eq_false, beq_iff_eq]
      intro z hz hzk
      have := h.1 z hz; omega
    simp only [insertEntry]
    split
    · have h1 : ¬ y.key = e.key := by omega
      have h2 := hys ‹_›
      simp only [holdsKey] at h2
      simp [holdsKey, h1, h2]
    · split
      · have h1 : y.key = e.key := by omega
        simp [holdsKey, h1]
      · have h1 : ¬ y.key = e.key := by omega
        rw [List.length_cons, ih h.2, List.length_cons]
        simp only [holdsKey, List.any_cons]
        have : (y.key == e.key) = false := by simpa using h1
        simp [this]; omega

/-! ## A ROUTESET's entries applied (R115) -/

theorem applyRoutes_cons (e : RouteEntry) (es bank : List RouteEntry) :
    applyRoutes (e :: es) bank = applyRoutes es (insertEntry { e with k := min e.k 11 } bank) := rfl

theorem applyRoutes_pairwise (es : List RouteEntry) {bank : List RouteEntry}
    (h : bank.Pairwise fun x y => x.key < y.key) : (applyRoutes es bank).Pairwise fun x y => x.key < y.key := by
  induction es generalizing bank with
  | nil => exact h
  | cons e es ih => rw [applyRoutes_cons]; exact ih (insertEntry_pairwise h)

/-- Under each key stands the last entry of the list that names it, its exponent clamped, or what stood there. -/
theorem applyRoutes_find (es : List RouteEntry) {bank : List RouteEntry} (key : Nat)
    (h : bank.Pairwise fun x y => x.key < y.key) :
    ((applyRoutes es bank).find? fun x => x.key == key) =
      match es.reverse.find? fun x => x.key == key with
      | some e => some { e with k := min e.k 11 }
      | none => bank.find? fun x => x.key == key := by
  induction es generalizing bank with
  | nil => rfl
  | cons e es ih =>
    rw [applyRoutes_cons, ih (insertEntry_pairwise h), List.reverse_cons, List.find?_append, insertEntry_find key h]
    cases hf : es.reverse.find? fun x => x.key == key with
    | some d => rfl
    | none =>
      have hc : RouteEntry.key { e with k := min e.k 11 } = e.key := rfl
      rw [hc]
      by_cases hk : e.key = key
      · rw [if_pos hk, List.find?_cons_of_pos (by simpa using hk)]; rfl
      · rw [if_neg hk, List.find?_cons_of_neg (by simpa using hk)]; rfl

theorem find_key_isSome {l : List RouteEntry} {key : Nat} :
    (l.find? fun x => x.key == key).isSome = true ↔ key ∈ l.map RouteEntry.key := by
  simp [List.find?_isSome]

theorem keys_nodup {l : List RouteEntry} (h : l.Pairwise fun x y => x.key < y.key) : (l.map RouteEntry.key).Nodup := by
  rw [List.Nodup, List.pairwise_map]
  exact h.imp fun hlt => Nat.ne_of_lt hlt

theorem applyRoutes_keys (es : List RouteEntry) {bank : List RouteEntry} (key : Nat)
    (h : bank.Pairwise fun x y => x.key < y.key) :
    key ∈ (applyRoutes es bank).map RouteEntry.key ↔ key ∈ bank.map RouteEntry.key ∨ key ∈ es.map RouteEntry.key := by
  rw [← find_key_isSome, applyRoutes_find es key h]
  cases hf : es.reverse.find? fun x => x.key == key with
  | some e =>
    have : key ∈ es.reverse.map RouteEntry.key := find_key_isSome.1 (by rw [hf]; rfl)
    rw [List.map_reverse, List.mem_reverse] at this
    simp [this]
  | none =>
    have : ¬ key ∈ es.reverse.map RouteEntry.key := fun hm => by
      have := find_key_isSome.2 hm
      rw [hf] at this; simp at this
    rw [List.map_reverse, List.mem_reverse] at this
    simp only [this, or_false]
    exact find_key_isSome

/-- The bank grows by the number of new keys (R114). -/
theorem applyRoutes_length (es : List RouteEntry) {bank : List RouteEntry}
    (h : bank.Pairwise fun x y => x.key < y.key) :
    (applyRoutes es bank).length = bank.length + (newKeys es bank).length := by
  have hb := keys_nodup h
  have ha := keys_nodup (applyRoutes_pairwise es h)
  have hn : (newKeys es bank).Nodup := List.Nodup.filter _ (List.nodup_dedup _)
  have hfin : ((applyRoutes es bank).map RouteEntry.key).toFinset =
      (bank.map RouteEntry.key).toFinset ∪ (newKeys es bank).toFinset := by
    ext key
    simp only [List.mem_toFinset, Finset.mem_union, applyRoutes_keys es key h, newKeys, List.mem_filter,
      List.mem_dedup, Bool.not_eq_true', holdsKey, List.any_eq_false, beq_iff_eq]
    constructor
    · rintro (hk | hk)
      · exact .inl hk
      · by_cases hm : key ∈ bank.map RouteEntry.key
        · exact .inl hm
        · refine .inr ⟨hk, fun x hx hxk => hm ?_⟩
          exact List.mem_map.2 ⟨x, hx, hxk⟩
    · rintro (hk | ⟨hk, -⟩)
      · exact .inl hk
      · exact .inr hk
  have hdis : Disjoint (bank.map RouteEntry.key).toFinset (newKeys es bank).toFinset := by
    rw [Finset.disjoint_left]
    intro key hk hm
    simp only [List.mem_toFinset, newKeys, List.mem_filter, Bool.not_eq_true', holdsKey, List.any_eq_false,
      beq_iff_eq, List.mem_map] at hk hm
    obtain ⟨x, hx, hxk⟩ := hk
    exact hm.2 x hx hxk
  have := congrArg Finset.card hfin
  rw [Finset.card_union_of_disjoint hdis, List.toFinset_card_of_nodup ha, List.toFinset_card_of_nodup hb,
    List.toFinset_card_of_nodup hn, List.length_map, List.length_map] at this
  exact this

/-! ## Payloads -/

theorem beInt_three (x : Int) : beInt 3 x = be 3 (x % 16777216).toNat := by
  simp [beInt]

/-- The entries of a ROUTESET payload are read back as they were written (spec/12). -/
theorem routeEntries_bytes (es : List RouteEntry) (h : ∀ e ∈ es, e.Fits) :
    routeEntries (es.flatMap RouteEntry.bytes) = es := by
  induction es with
  | nil => rfl
  | cons e es ih =>
    obtain ⟨h1, h2, h3, h4, h5⟩ := h e (by simp)
    have hb : fieldInt (beInt 3 e.target) 0 = e.target := by
      rw [fieldInt, field, beInt_three]
      have : ((be 3 (e.target % 16777216).toNat).drop 0).take 3 = be 3 (e.target % 16777216).toNat := by
        rw [List.drop_zero, List.take_of_length_le (by simp)]
      rw [this, ofBe_be, BitVec.toInt_ofNat']
      norm_num [Int.bmod_def]
      omega
    have key : ∀ (a b c d f k : Byte) (rest : List Byte),
        routeEntries (a :: b :: c :: d :: f :: k :: rest) =
          { input := a.toNat, output := b.toNat, target := fieldInt [c, d, f] 0, k := k.toNat } :: routeEntries rest :=
      fun _ _ _ _ _ _ _ => rfl
    rw [List.flatMap_cons, RouteEntry.bytes, beInt_three]
    have h3' : be 3 (e.target % 16777216).toNat = [BitVec.ofNat 8 ((e.target % 16777216).toNat >>> 16),
        BitVec.ofNat 8 ((e.target % 16777216).toNat >>> 8), BitVec.ofNat 8 (e.target % 16777216).toNat] := by
      simp [be]
    rw [beInt_three, h3'] at hb
    rw [h3', be_one, be_one, be_one]
    simp only [List.cons_append, List.nil_append]
    rw [key, ih fun d hd => h d (List.mem_cons_of_mem _ hd)]
    have e1 : (BitVec.ofNat 8 e.input).toNat = e.input := by rw [BitVec.toNat_ofNat]; omega
    have e2 : (BitVec.ofNat 8 e.output).toNat = e.output := by rw [BitVec.toNat_ofNat]; omega
    have e3 : (BitVec.ofNat 8 e.k).toNat = e.k := by rw [BitVec.toNat_ofNat]; omega
    rw [e1, e2, e3, hb]

theorem RouteEntry.bytes_length (e : RouteEntry) : e.bytes.length = 6 := by
  simp [RouteEntry.bytes, beInt]

theorem routeBytes_length (es : List RouteEntry) : (es.flatMap RouteEntry.bytes).length = 6 * es.length := by
  induction es with
  | nil => rfl
  | cons e es ih => rw [List.flatMap_cons, List.length_append, ih, RouteEntry.bytes_length, List.length_cons]; omega

/-- The pairs of a payload are read back as they were written (spec/12). -/
theorem bytePairs_bytes (ks : List (Nat × Nat)) (h : ∀ k ∈ ks, k.1 < 256 ∧ k.2 < 256) :
    bytePairs (ks.flatMap pairBytes) = ks := by
  induction ks with
  | nil => rfl
  | cons k ks ih =>
    obtain ⟨h1, h2⟩ := h k (by simp)
    have key : ∀ (a b : Byte) (rest : List Byte), bytePairs (a :: b :: rest) = (a.toNat, b.toNat) :: bytePairs rest :=
      fun _ _ _ => rfl
    rw [List.flatMap_cons, pairBytes, be_one, be_one]
    simp only [List.cons_append, List.nil_append]
    rw [key, ih fun d hd => h d (List.mem_cons_of_mem _ hd), BitVec.toNat_ofNat, BitVec.toNat_ofNat,
      Nat.mod_eq_of_lt h1, Nat.mod_eq_of_lt h2]

theorem pairBytes_length (ks : List (Nat × Nat)) : (ks.flatMap pairBytes).length = 2 * ks.length := by
  induction ks with
  | nil => rfl
  | cons k ks ih => rw [List.flatMap_cons, List.length_append, ih, List.length_cons]; simp [pairBytes]; omega

/-! ## The first item that satisfies a test -/

theorem firstIndex_none {α : Type} {p : α → Bool} {l : List α} (h : ∀ x ∈ l, p x = false) : firstIndex p l = none := by
  induction l with
  | nil => rfl
  | cons x xs ih => simp [firstIndex, h x (by simp), ih fun y hy => h y (List.mem_cons_of_mem _ hy)]

theorem firstIndex_some {α : Type} {p : α → Bool} {l : List α} {k : Nat} {x : α} (hk : l[k]? = some x)
    (hx : p x = true) (h : ∀ y ∈ l.take k, p y = false) : firstIndex p l = some k := by
  induction l generalizing k with
  | nil => simp at hk
  | cons y ys ih =>
    cases k with
    | zero => simp at hk; subst hk; simp [firstIndex, hx]
    | succ k =>
      have hy : p y = false := h y (by simp)
      have := ih (k := k) (by simpa using hk) (fun z hz => h z (by simp [hz]))
      simp [firstIndex, hy, this]

end Sys2Proof.Machine
end

