-- ==== Sys2Proof/Laws/Table.lean ====
section
/-!
SUPPORT. Every bus command of the table is one write frame: the interface judges it, its owner checks the length that
the table of spec/12 gives and then acts.
-/

namespace Sys2Proof.Machine

open Sys2Proof

theorem isEmpty_eq_goodLength (p : List Byte) : p.isEmpty = (p.length == 0) := by cases p <;> rfl

/-- The owner of a bus command and its act, once code and length are in order. -/
def Instr.owner : Instr → Role → State → State
  | .ident _ _ => fun r => ident r
  | .notefetch _ _ => fun r => notefetch r
  | .progstat _ _ => fun r => progstat r
  | .feedset _ p => fun r => feedset p (feedField p) r
  | .play _ p => fun r => play (playParams p) (feedField p) r
  | .stop _ p => fun r => stop p (feedField p) r
  | .feedack _ p => fun r => feedack (feedField p) r
  | .feedstat _ p => fun r => feedstat (feedField p) r
  | .scnopen _ p => fun r => scnopen p r
  | .routeset _ p => fun r => routeset (routeEntries p) r
  | .routedrop _ p => fun r => routedrop (bytePairs p) r
  | .scnseal _ p => fun r => scnseal (u8 p 0) r
  | .scndiscard _ _ => fun r => scndiscard r
  | .scntake _ _ => fun r => scntake r
  | .scnstat _ p => fun r => scnstat p r
  | .cuepost _ p => fun r => cuepost p r
  | .cuecancel _ p => fun r => cuecancel (p.getD 0 0) r
  | .cuestat _ _ => fun r => cuestat r
  | .clockset _ p => fun r => clockset p r
  | .partition _ p => fun r => partition p r
  | .outset _ p => fun r => outset p r
  | .outstat _ p => fun r => outstat p r
  | .groupset _ p => fun r => groupset p r
  | .onair _ p => fun _ => onair p
  | .policy _ p => fun r => policy p r
  | .noteroute _ p => fun r => noteroute (bytePairs p) r
  | .callock _ _ => fun r => callock r
  | .flush _ _ => fun _ => flush
  | _ => fun _ s => s

/-- A bus command is its frame: judged by the interface, its length checked by the owner, then acted on (R170, R190).
A ROUTEDROP frame is at most 250 bytes long, as every frame is (R168). -/
theorem exec_frame {i : Instr} {code : Byte} {addr : BitVec 7} {p : List Byte} (h : i.frame = some (code, addr, p))
    (hp : p.length ≤ 250) (s : State) :
    exec i s = .next (takeFrame code addr p
      (fun r => lengthChecked (goodLength code.toNat p.length) r (Instr.owner i r)) s) := by
  have h6 : (p.length % 6 == 0 && decide (p.length ≤ 240)) = (p.length % 6 == 0 && decide (p.length / 6 ≤ 40)) := by
    rw [Bool.eq_iff_iff]; simp only [Bool.and_eq_true, beq_iff_eq, decide_eq_true_eq]; omega
  have h2 : (p.length % 2 == 0 && decide (p.length ≤ 32)) = (p.length % 2 == 0 && decide (p.length / 2 ≤ 16)) := by
    rw [Bool.eq_iff_iff]; simp only [Bool.and_eq_true, beq_iff_eq, decide_eq_true_eq]; omega
  have hd : (p.length % 2 == 0) = (p.length % 2 == 0 && decide (p.length / 2 ≤ 125)) := by
    rw [Bool.eq_iff_iff]; simp only [Bool.and_eq_true, beq_iff_eq, decide_eq_true_eq]; omega
  cases i <;> simp only [Instr.frame, Option.some.injEq, Prod.mk.injEq, reduceCtorEq] at h
  all_goals obtain ⟨rfl, rfl, rfl⟩ := h
  case ident addr p =>
    have e : (p.isEmpty) = goodLength (0x01 : Byte).toNat p.length := isEmpty_eq_goodLength _
    show Host.Outcome.next (takeFrame _ _ _ (fun r => lengthChecked (p.isEmpty) r (ident r)) s) = _
    rw [e]; rfl
  case notefetch addr p =>
    have e : (p.isEmpty) = goodLength (0x02 : Byte).toNat p.length := isEmpty_eq_goodLength _
    show Host.Outcome.next (takeFrame _ _ _ (fun r => lengthChecked (p.isEmpty) r (notefetch r)) s) = _
    rw [e]; rfl
  case progstat addr p =>
    have e : (p.isEmpty) = goodLength (0x03 : Byte).toNat p.length := isEmpty_eq_goodLength _
    show Host.Outcome.next (takeFrame _ _ _ (fun r => lengthChecked (p.isEmpty) r (progstat r)) s) = _
    rw [e]; rfl
  case feedset addr p =>
    rfl
  case play addr p =>
    rfl
  case stop addr p =>
    rfl
  case feedack addr p =>
    rfl
  case feedstat addr p =>
    rfl
  case scnopen addr p =>
    rfl
  case routeset addr p =>
    have e : (p.length % 6 == 0 && decide (p.length ≤ 240)) = goodLength (0x21 : Byte).toNat p.length := h6
    show Host.Outcome.next (takeFrame _ _ _ (fun r => lengthChecked (p.length % 6 == 0 && decide (p.length ≤ 240)) r (routeset (routeEntries p) r)) s) = _
    rw [e]; rfl
  case routedrop addr p =>
    have e : (p.length % 2 == 0) = goodLength (0x22 : Byte).toNat p.length := hd
    show Host.Outcome.next (takeFrame _ _ _ (fun r => lengthChecked (p.length % 2 == 0) r (routedrop (bytePairs p) r)) s) = _
    rw [e]; rfl
  case scnseal addr p =>
    rfl
  case scndiscard addr p =>
    have e : (p.isEmpty) = goodLength (0x24 : Byte).toNat p.length := isEmpty_eq_goodLength _
    show Host.Outcome.next (takeFrame _ _ _ (fun r => lengthChecked (p.isEmpty) r (scndiscard r)) s) = _
    rw [e]; rfl
  case scntake addr p =>
    have e : (p.isEmpty) = goodLength (0x25 : Byte).toNat p.length := isEmpty_eq_goodLength _
    show Host.Outcome.next (takeFrame _ _ _ (fun r => lengthChecked (p.isEmpty) r (scntake r)) s) = _
    rw [e]; rfl
  case scnstat addr p =>
    rfl
  case cuepost addr p =>
    rfl
  case cuecancel addr p =>
    rfl
  case cuestat addr p =>
    have e : (p.isEmpty) = goodLength (0x32 : Byte).toNat p.length := isEmpty_eq_goodLength _
    show Host.Outcome.next (takeFrame _ _ _ (fun r => lengthChecked (p.isEmpty) r (cuestat r)) s) = _
    rw [e]; rfl
  case clockset addr p =>
    rfl
  case partition addr p =>
    rfl
  case outset addr p =>
    rfl
  case outstat addr p =>
    rfl
  case groupset addr p =>
    rfl
  case onair addr p =>
    rfl
  case policy addr p =>
    rfl
  case noteroute addr p =>
    have e : (p.length % 2 == 0 && decide (p.length ≤ 32)) = goodLength (0x47 : Byte).toNat p.length := h2
    show Host.Outcome.next (takeFrame _ _ _ (fun r => lengthChecked (p.length % 2 == 0 && decide (p.length ≤ 32)) r (noteroute (bytePairs p) r)) s) = _
    rw [e]; rfl
  case callock addr p =>
    have e : (p.isEmpty) = goodLength (0x48 : Byte).toNat p.length := isEmpty_eq_goodLength _
    show Host.Outcome.next (takeFrame _ _ _ (fun r => lengthChecked (p.isEmpty) r (callock r)) s) = _
    rw [e]; rfl
  case flush addr p =>
    have e : (p.isEmpty) = goodLength (0x49 : Byte).toNat p.length := isEmpty_eq_goodLength _
    show Host.Outcome.next (takeFrame _ _ _ (fun r => lengthChecked (p.isEmpty) r (flush)) s) = _
    rw [e]; rfl

/-- The same with no word on the owner. -/
theorem exec_takeFrame {i : Instr} {code : Byte} {addr : BitVec 7} {p : List Byte}
    (h : i.frame = some (code, addr, p)) (s : State) :
    ∃ owner, exec i s = .next (takeFrame code addr p owner s) := by
  cases i <;> simp only [Instr.frame, Option.some.injEq, Prod.mk.injEq, reduceCtorEq] at h
  all_goals
    obtain ⟨rfl, rfl, rfl⟩ := h
    exact ⟨_, rfl⟩

end Sys2Proof.Machine
end

