-- ==== Sys2Proof/WellFormed.lean ====
section
/-!
DEFINITION. Which commands are well formed: operands within what the part's frames and units can carry.
-/

namespace Sys2Proof

/-- A write frame of a bus command declares at most 250 payload bytes (R168). -/
def payloadOk (payload : List Byte) : Bool := payload.length ≤ 250

/-- A read access of a passing fault names a channel below 96, or an output below 64, and a tap of R83's twenty, or
the single read of a delay line. -/
def Access.ok (x : Access) : Bool :=
  match x.reader with
  | .feed _ => x.index < 96 && x.tap < 20
  | .delay  => x.index < 64 && x.tap == 0

/-- The reads of a house sample event: accesses that exist, and late ring reads of a channel below 96 and a tap of R83's
twenty. -/
def SampleReads.ok (r : SampleReads) : Bool :=
  r.passing.all Access.ok && r.late.all fun x => x.channel < 96 && x.tap < 20

/-- The operands of a command lie within what the part can meet. Meanings are total all the same: a command that is
not well formed has the effect its own rule gives (log 3). -/
def Instr.wf : Instr → Bool
  | .powerOn _ | .resetAssert | .resetRelease _ => true
  | .dividerTerminalCount r => r.ok
  | .wordClockEdge e => e.reads.ok
  | .wordClockLoss | .lossCondition | .returnPeriodGood => true
  | .blockEvent _ _ | .startupEnd => true
  | .wordParityFault w => w < Config.memWords
  | .laneBlockBegin _ _ _ | .laneBlockArrive _ _ _ => true
  | .laneBlockAbandon _ _ | .paceWindowExpiry _ | .burstWindowExpiry _ | .watchPeriodClose _ => true
  | .feedset _ p | .play _ p | .stop _ p | .feedack _ p | .feedstat _ p => payloadOk p
  | .stopOnAirTake _ | .transitionEnd | .onairTake => true
  | .onair _ p | .policy _ p => payloadOk p
  | .scnopen _ p | .routeset _ p | .routedrop _ p | .scnseal _ p | .scndiscard _ p | .scntake _ p
  | .scnstat _ p => payloadOk p
  | .sceneCopy | .take => true
  | .rampEnd i o => i < 96 && o < 64
  | .duckEnd o => o < 64
  | .generalCall _ => true
  | .groupset _ p | .outset _ p | .outstat _ p => payloadOk p
  | .cuepost _ p | .cuecancel _ p | .cuestat _ p => payloadOk p
  | .clockset _ p | .partition _ p | .ident _ p | .notefetch _ p | .progstat _ p | .noteroute _ p
  | .callock _ p | .flush _ p => payloadOk p
  | .flushComplete => true
  | .frameFormatError _ _ | .busStall _ _ _ => true

end Sys2Proof
end

