-- ==== Sys2Proof/Tests/Slice0.lean ====
section
/-!
SUPPORT. Tests of the model and witnesses of the statements: an ill-formed term for each check of WellFormed, the
worked values of spec/, and for each statement with hypotheses a state and operands that meet them.
-/

namespace Sys2Proof.Tests

open Sys2Proof Sys2Proof.Machine

-- The tests are checked one after another: checked side by side they need a thread each.
set_option Elab.async false

/-! ## Well-formedness: each check refuses an ill-formed term -/

theorem test_wf_payload_251 : (Instr.feedset 0x34 (List.replicate 251 0)).wf = false := by decide +kernel
theorem test_wf_payload_250 : (Instr.routedrop 0x36 (List.replicate 250 0)).wf = true := by decide +kernel
theorem test_wf_word : (Instr.wordParityFault 1048576).wf = false := by decide +kernel
theorem test_wf_access_channel : (Instr.dividerTerminalCount ⟨[⟨.feed .a, 96, 0, false⟩], []⟩).wf = false := by decide
theorem test_wf_access_tap : (Instr.dividerTerminalCount ⟨[⟨.feed .a, 0, 20, false⟩], []⟩).wf = false := by decide
theorem test_wf_late_channel : (Instr.dividerTerminalCount ⟨[], [⟨.a, 96, 0⟩]⟩).wf = false := by decide
theorem test_wf_late_tap : (Instr.wordClockEdge ⟨⟨[], [⟨.b, 0, 20⟩]⟩, false⟩).wf = false := by decide
theorem test_wf_access_output : (Instr.wordClockEdge ⟨⟨[⟨.delay, 64, 0, false⟩], []⟩, false⟩).wf = false := by decide
theorem test_wf_access_line_tap : (Instr.wordClockEdge ⟨⟨[⟨.delay, 63, 1, false⟩], []⟩, false⟩).wf = false := by decide
theorem test_wf_ramp_input : (Instr.rampEnd 96 0).wf = false := by decide
theorem test_wf_ramp_output : (Instr.rampEnd 0 64).wf = false := by decide
theorem test_wf_duck_output : (Instr.duckEnd 64).wf = false := by decide

/-! ## The table's words -/

/-- No row of spec/opcode_table.json gives bits. -/
theorem test_no_word : decodeTableWord 8 0 = none ∧ State.reset.withFetchWord 8 0 = State.reset := ⟨rfl, rfl⟩

/-! ## Worked values of spec/ -/

/-- A streaming setup of a feed rate, a speed factor and a watch exponent. -/
def setupAt (rate : Rate) (speed : Speed) (wExp : Nat) : Setup :=
  { mode := .streaming, rate := rate, speed := speed, n := 1, lanes := 1, dExp := 11, wExp := wExp }

/-- spec/05, Worked values: every nominal ratio. -/
theorem test_nominal_ratios :
    [(Rate.k48, Rate.k96, Speed.one), (.k48, .k96, .pullUp), (.k48, .k96, .pullDown), (.k48, .k96, .up25),
      (.k48, .k96, .down24), (.k48, .k48, .one), (.k48, .k48, .pullUp), (.k48, .k48, .pullDown), (.k96, .k96, .up25),
      (.k96, .k96, .down24), (.k96, .k48, .one), (.k96, .k48, .pullUp), (.k96, .k48, .pullDown), (.k96, .k48, .up25),
      (.k96, .k48, .down24)].map
      (fun v => let r := (setupAt v.1 v.2.2 3).nominal v.2.1; (r, r / 512, drainFactor r)) =
    [(134217728, 262144, 1), (134351945, 262406, 1), (134083644, 261882, 1), (139810133, 273066, 1),
      (128849018, 251658, 1), (268435456, 524288, 1), (268703891, 524812, 2), (268167288, 523764, 1),
      (279620266, 546133, 2), (257698037, 503316, 1), (536870912, 1048576, 2), (537407782, 1049624, 3),
      (536334577, 1047528, 2), (559240533, 1092266, 3), (515396075, 1006632, 2)] := by decide +kernel

/-- spec/02, the watch check at base 1/2: W = 4 fails pulled down, and passes at speed 1/1. -/
theorem test_watch_check :
    (setupAt .k48 .pullDown 2).watchOk .k96 = false ∧ (setupAt .k48 .one 2).watchOk .k96 = true := by decide +kernel

/-- spec/03, the table of delay capacities. -/
theorem test_delay_capacities :
    [0, 100, 300, 640, 1023, 1024].map delayCapacity = [0, 1024, 4096, 8192, 8192, 16384] := by decide +kernel

/-- A resampler of base 1 and speed 1/1 with an integrator. -/
def tracker (rNom : Nat) (acc : Int) : Resampler :=
  { rNom := rNom, r := rNom, acc := acc, i := 0, phi := 0, held := false, servoErr := 0, clamped := false
    underrun := false }

/-- spec/05, Worked sequence: three servo steps, and the negative integrator of the text. -/
theorem test_servo_steps :
    [((tracker 268435456 100).servo 1042 1024), ((tracker 268435456 118).servo 1030 1024),
      ((tracker 268435456 124).servo 1020 1024), ((tracker 268435456 (-100)).servo 1006 1024)].map
      (fun v => (v.r, v.acc, v.clamped)) =
    [(268436615, 118, false), (268435847, 124, false), (268435207, 120, false), (268434296, -118, false)] := by
  decide +kernel

/-- spec/05, Worked case: the servo at its clamp, fast and slow. -/
theorem test_servo_clamp :
    [((tracker 128849018 1048000).servo 8192 4096), ((tracker 128849018 (-1048576)).servo 0 4096)].map
      (fun v => (v.r, v.acc, v.servoErr, v.clamped)) =
    [(129100676, 1048575, 4096, true), (128597360, -1048576, -4096, true)] := by decide +kernel

/-- spec/05, Worked sequence: advancing at base 1/2; and an advance beyond the last frame, which holds (R69). -/
theorem test_advance :
    ({ tracker 134217728 0 with i := 1000, phi := 134217728 } : Resampler).advanced =
      { tracker 134217728 0 with i := 1001, phi := 0 } ∧
    ({ tracker 268435456 0 with i := 1099511627775, phi := 0 } : Resampler).advanced =
      { tracker 268435456 0 with i := 1099511627775, phi := 0, held := true } := by decide +kernel

/-- R69 at base 1/2: at the last frame the phase moves before an advance goes beyond it, and then nothing moves. -/
theorem test_advance_last :
    let v : Resampler := { tracker 134217728 0 with i := 1099511627775 }
    v.advanced = { v with phi := 134217728 } ∧ v.advanced.advanced = { v with held := true } ∧
    v.advanced.advanced.advanced = { v with held := true } := by decide +kernel

/-- spec/05, Worked cases: interpolation. -/
theorem test_cubic :
    cubic 0 1000 2000 1000 32768 = 1625 ∧ cubic 0 1000 2000 1000 1 = 1000 ∧ cubic 0 (-1000) (-2000) (-1000) 1 = -1001 ∧
    cubic 0 8388607 8388607 0 32768 = 8388607 := by decide +kernel

/-- spec/05, Worked cases: the half-band values of a whole point set, and the value that they give. -/
theorem test_half_band :
    [halfBand 0 0 0 1000 1000, halfBand 0 0 1000 2000 0, halfBand 0 1000 2000 1000 0, halfBand 0 2000 1000 0 0] =
      [250, 1062, 1562, 1062] ∧ cubic 250 1062 1562 1062 32768 = 1394 := by decide +kernel

/-- The selector of spec/06, Worked sequence: a crossfade abandoned. -/
def fading (abandoned : Bool) (n j : Nat) : Selector :=
  { selectorPowerOn with state := .xfade .a, abandoned := abandoned, n := n, n0 := if abandoned then 96 else 0, j := j }

/-- spec/06, Worked sequence: a crossfade abandoned. -/
theorem test_abandoned_inputs :
    [(fading false 95 0), (fading true 96 0), (fading true 96 80), (fading true 96 159)].map
      (fun v => v.input 1000000 1200000) = [1074218, 1075000, 537500, 3906] := by decide +kernel

/-- The banks of spec/07, Worked sequence: a take with ramps and releases. -/
def sealedScene : Scene :=
  { sceneReset with
    state := .sealed 2
    active := [⟨0, 2, 4194304, 0, 4194304, 0, 0, false⟩, ⟨7, 2, 2097152, 3, 1048576, 262144, 4, false⟩,
      ⟨3, 5, 0, 3, 600000, -150000, 4, true⟩, ⟨1, 9, 1000001, 0, 1000001, 0, 0, false⟩, ⟨4, 20, 0, 0, 0, 0, 0, false⟩]
    pendingBank := [⟨0, 2, 2097152, 1⟩, ⟨7, 2, 3145728, 2⟩, ⟨3, 5, 1000000, 0⟩, ⟨40, 12, -4194304, 2⟩] }

/-- spec/07, Worked sequence: the routes that the take installs. -/
theorem test_take_routes :
    (sealedScene.taken .k48 2).active.map (fun e => (e.input, e.output, e.gain, e.step, e.remaining, e.releasing)) =
      [(0, 2, 4194304, -1048576, 2, false), (7, 2, 1048576, 524288, 4, false), (3, 5, 600000, 400000, 1, false),
        (1, 9, 1000001, -250000, 4, true), (40, 12, 0, -1048576, 4, false), (4, 20, 0, 0, 4, true)] := by decide +kernel

/-- spec/07, Worked sequence: the gains of house samples 64,001 to 64,004. -/
theorem test_take_gains :
    [1, 2, 3, 4].map (fun k => (sealedScene.taken .k48 2).active.map fun e => (ActiveRoute.advanced^[k] e).gain) =
      [[3145728, 1572864, 1000000, 750001, -1048576, 0], [2097152, 2097152, 1000000, 500001, -2097152, 0],
        [2097152, 2621440, 1000000, 250001, -3145728, 0], [2097152, 3145728, 1000000, 0, -4194304, 0]] := by
  decide +kernel

/-- spec/08, Worked case: one output's sum, trim and slot value, and the saturated sum with its trim. -/
theorem test_mix :
    mixSum [⟨3, 12, 2097152, 0, 2097152, 0, 0, false⟩, ⟨7, 12, -0, 0, 4194304, 0, 0, false⟩]
        [0, 0, 0, 4000000, 0, 0, 0, -1000000] 12 = (1000000, false) ∧
    ({ outReset with trim := 3145728, heldSum := 1000000 } : OutRec).trimmed = 750000 ∧
    ({ outReset with heldDelayed := 750000 } : OutRec).slotValue = 750000 ∧
    mixSum [⟨3, 12, 4194304, 0, 4194304, 0, 0, false⟩, ⟨7, 12, 4194304, 0, 4194304, 0, 0, false⟩]
        [0, 0, 0, 6000000, 0, 0, 0, 5000000] 12 = (8388607, true) ∧
    ({ outReset with trim := 2097152, heldSum := 8388607 } : OutRec).trimmed = 4194304 := by decide +kernel

/-- spec/08, the mute table: 1,000,000 at the gains of house samples 80,200 to 80,264. -/
theorem test_mute_values :
    [4194304, 4128768, 2097152, 65536, 0].map
      (fun m => ({ outReset with heldDelayed := 1000000, m := m } : OutRec).slotValue) =
    [1000000, 984375, 500000, 15625, 0] := by decide +kernel

/-- The check word of "123456789" under R188's register is the published 29B1h. -/
theorem test_check_word : crcOf [0x31, 0x32, 0x33, 0x34, 0x35, 0x36, 0x37, 0x38, 0x39] = 0x29B1 := by decide +kernel

/-- spec/09, the order of posting and the list that it makes. -/
theorem test_cue_order :
    ([(2, 1200000), (9, 1200100), (1, 1199990), (4, 1200000)].foldl
      (fun l (v : Nat × Nat) =>
        insertCue { tag := BitVec.ofNat 8 v.1, poster := .system, trigger := v.2, action := .mark, arg := 0, late := false } l)
      []).map (fun c => c.tag.toNat) = [1, 2, 4, 9] := by decide +kernel

/-! ## Small states -/

/-- The part after reset once STARTING is over. -/
def up : State := { State.reset with clock := { State.reset.clock with phase := .running, scrubPage := 1024 } }

/-- The part with the RESET line asserted. -/
def held : State := { up with resetLine := true }

/-- The next state of an outcome. -/
def after (o : Host.Outcome State Fault Refusal) : State :=
  match o with
  | .next t => t
  | _ => State.reset

/-- A state with one role's command in execution. -/
def doing (r : Role) (code : Byte) (s : State) : State := { s with bus := s.bus.handedOver r code }

/-- A role's answer: the result and the data. -/
def answerOf (o : Host.Outcome State Fault Refusal) (r : Role) : ResultCode × List Byte :=
  (((after o).bus.records.get r).result, ((after o).bus.records.get r).data)

/-- The kinds and details in the system controller's queue. -/
def told (o : Host.Outcome State Fault Refusal) : List (Kind × List Byte) :=
  (after o).notices.queues.r3.map fun v => (v.kind, v.detail)

def lead (f : Feed) : Feed := { f with st := .running, role := .leader }
def stand (f : Feed) : Feed := { f with st := .running, role := .standby }
def outgo (f : Feed) : Feed := { f with st := .running, role := .outgoing }
def fails (f : Feed) : Feed := { f with st := .ending, ending := some .laneLost }
def isDone (f : Feed) : Feed := { f with st := .complete, completion := some { reason := .count, final := 7 } }

/-- A state with the selector in a state. -/
def at_ (v : SelState) (s : State) : State := s.onSel fun u => { u with state := v }

/-- A on air with B its aligned standby. -/
def air : State := (at_ (.onair .a) ((up.onFeed .a lead).onFeed .b stand)).onSel fun v => { v with aligned := true }

/-- A on air alone. -/
def solo : State := at_ (.onair .a) (up.onFeed .a lead)

/-- The crossfade from A to B. -/
def cross : State := at_ (.xfade .a) ((up.onFeed .a outgo).onFeed .b lead)

/-- A lane header. -/
def header (lane count flags : Byte) (stamp : BitVec 40) : LaneHeader :=
  { laneNo := lane, count := count, flags := flags, stamp := stamp }

/-- A house clock unit in HOLDOVER with a watch. -/
def holding (w : ReturnWatch) (good : Nat) (s : State) : State :=
  { s with clock := { s.clock with source := .external, state := .holdover, watch := w, good := good } }

/-- A house clock unit in FOLLOWING. -/
def following (s : State) : State := { s with clock := { s.clock with source := .external, state := .following } }

/-- One output's record changed. -/
def out0 (g : OutRec → OutRec) (s : State) : State := s.onOut 0 g

/-! ## One small step for each command -/

theorem test_powerOn : (after (exec (.powerOn true) held)).bus.strap = true ∧ (after (exec (.powerOn true) held)).clock.n = 127 ∧
    (after (exec (.powerOn true) held)).resetLine = false := by decide +kernel

/-- R13, R107: the RESET line keeps the program position. -/
theorem test_resetAssert : (after (exec .resetAssert (air.onSel fun v => { v with pos := 5 }))).sel.pos = 5 ∧
    (after (exec .resetAssert air)).feedA.st = .idle ∧ (after (exec .resetAssert air)).clock.phase = .starting := by
  decide +kernel

theorem test_resetRelease : (after (exec (.resetRelease true) held)).resetLine = false ∧
    (after (exec (.resetRelease true) held)).bus.strap = true := by decide +kernel

/-- R1, R9: the 32nd house sample event is a block event; in FOLLOWING a terminal count makes none. -/
theorem test_dividerTerminalCount :
    (after (exec (.dividerTerminalCount quietReads) { up with clock := { up.clock with counter := 31 } })).blockDue = true ∧
    (after (exec (.dividerTerminalCount quietReads) up)).blockDue = false ∧
    (after (exec (.dividerTerminalCount quietReads) (following up))).clock.counter = 0 := by decide +kernel

/-- R3, R5: an edge is a house sample event in FOLLOWING, and opens the return watch in HOLDOVER. -/
theorem test_wordClockEdge :
    (after (exec (.wordClockEdge ⟨quietReads, false⟩) (following up))).clock.counter = 1 ∧
    (after (exec (.wordClockEdge ⟨quietReads, false⟩) (holding .idle 0 up))).clock.watch = .counting 0 ∧
    (after (exec (.wordClockEdge ⟨quietReads, false⟩) up)).clock.counter = 0 := by decide +kernel

/-- R1: while the master clock is stopped an edge in FOLLOWING makes no house sample, no period of the divider passes and
no loss comes; an edge with the clock running is a house sample again. -/
theorem test_masterClockStopped :
    let s := after (exec (.wordClockEdge ⟨quietReads, true⟩) (following up))
    s.clock.counter = 0 ∧ s.clock.wclkOut = up.clock.wclkOut ∧ tick s = s ∧ after (exec .wordClockLoss s) = s ∧
    (after (exec (.wordClockEdge ⟨quietReads, false⟩) s)).clock.counter = 1 := by decide +kernel

theorem test_wordClockLoss : told (exec .wordClockLoss (following up)) = [(.clock, [0, 0, 0, 0])] ∧
    (after (exec .wordClockLoss (following up))).clock.state = .holdover := by decide +kernel

theorem test_lossCondition : (after (exec .lossCondition (holding (.counting 9) 1 up))).clock.watch = .idle ∧
    (after (exec .lossCondition (holding .waiting 2 up))).clock.good = 0 := by decide +kernel

theorem test_returnPeriodGood :
    (after (exec .returnPeriodGood (holding (.counting 1024) 0 up))).clock.good = 1 ∧
    (after (exec .returnPeriodGood (holding (.counting 1024) 1 up))).clock.watch = .waiting ∧
    (after (exec .returnPeriodGood (holding (.counting 1023) 0 up))).clock.good = 0 := by decide +kernel

/-- R6: the switch back at a block event. -/
theorem test_blockEvent_return :
    told (exec (.blockEvent false false) { holding .waiting 2 up with blockDue := true }) = [(.clock, [1, 0, 0, 0])] := by
  decide +kernel

/-- R12: a block event of STARTING scrubs page 0. -/
theorem test_blockEvent_scrub :
    (after (exec (.blockEvent false false) { State.reset with blockDue := true, mem := [(1023, ⟨1, true⟩), (1024, ⟨1, true⟩)] })).mem =
      [(1024, ⟨1, true⟩)] := by decide +kernel

theorem test_startupEnd :
    (after (exec .startupEnd { up with clock := { up.clock with phase := .starting } })).clock.phase = .running ∧
    (after (exec .startupEnd State.reset)).clock.phase = .starting := by decide +kernel

theorem test_wordParityFault : ((after (exec (.wordParityFault 1048575) up)).mem.read 1048575).good = false ∧
    (match exec (.wordParityFault 1048576) up with | .fault .noSuchWord => true | _ => false) = true := by decide +kernel

/-- R15: counts 0 and 49 cannot frame a block; 48 makes 4610 bytes due. -/
theorem test_laneBlockBegin :
    ([0, 49, 48].map fun c => (after (exec (.laneBlockBegin .a .l0 (header 0 c 0 0)) up)).feedA.rx0) =
      [.hunting, .hunting, .receiving (header 0 48 0 0) [] 4610 0] := by decide +kernel

/-- R15: an unused lane receives nothing. -/
theorem test_laneBlockBegin_unused :
    (after (exec (.laneBlockBegin .a .l1 (header 1 1 0 0)) up)).feedA.rx1 = .hunting := by decide +kernel

theorem test_laneBlockArrive_part :
    (after (exec (.laneBlockArrive .a .l0 [1, 2]) (up.onFeed .a fun f => { f with rx0 := .receiving (header 0 1 0 0) [] 98 1 }))).feedA.rx0 =
      .receiving (header 0 1 0 0) [1, 2] 96 0 := by decide +kernel

/-- R188: a sync word may follow a 6Bh that begins none, and the header is what the eight bytes after it spell. -/
theorem test_laneBlockArrive_sync :
    ([[0, 0x6B], [0x6B, 0x6B], [0x6B, 0], [0x6B, 0x6B, 0xD2, 0, 1], [0x6B, 0xD2, 0, 1, 0, 0, 0, 0, 1, 0, 7]].map fun bytes =>
      (after (exec (.laneBlockArrive .a .l0 bytes) up)).feedA.rx0) =
      [.halfSync, .halfSync, .hunting, .heading [0, 1] 0, .receiving (header 0 1 0 256) [7] 97 0] := by decide +kernel

theorem test_laneBlockAbandon :
    (after (exec (.laneBlockAbandon .a .l0) (up.onFeed .a fun f => { f with rx0 := .receiving (header 0 1 0 0) [] 98 2 }))).feedA.rx0 =
      .hunting ∧
    (after (exec (.laneBlockAbandon .a .l0) (up.onFeed .a fun f => { f with rx0 := .receiving (header 0 1 0 0) [] 98 1 }))).feedA.rx0 ≠
      .hunting := by decide +kernel

/-- A SINGLE feed with a request outstanding and its window at a count. -/
def asking (mode : FeedMode) (window : Nat) (try2 : Bool) : State :=
  up.onFeed .a fun f =>
    { f with
      setup := { f.setup with mode := mode }, st := .running, role := .leader
      pace := { f.pace with line := true, isOpen := true, window := window, try2 := try2 } }

/-- R27: a second try at 128, and PACELATE with the lane that has not begun. -/
theorem test_paceWindowExpiry :
    (after (exec (.paceWindowExpiry .a) (asking .single 128 false))).feedA.pace.try2 = true ∧
    (after (exec (.paceWindowExpiry .a) (asking .single 127 false))).feedA.pace.try2 = false ∧
    told (exec (.paceWindowExpiry .a) (asking .single 128 true)) = [(.pacelate, [0, 1, 0, 0])] := by decide +kernel

/-- R28: the line is negated for one house sample, and a second expiry raises PACELATE. -/
theorem test_burstWindowExpiry :
    (after (exec (.burstWindowExpiry .a) (asking .burst 128 false))).feedA.pace.line = false ∧
    (after (exec (.burstWindowExpiry .a) (asking .burst 128 false))).feedA.pace.reassert = true ∧
    told (exec (.burstWindowExpiry .a) (asking .burst 128 true)) = [(.pacelate, [0, 1, 0, 0])] := by decide +kernel

/-- A on air with a watch period that is due to close bad. -/
def watching (s : State) (bad : Nat) : State :=
  s.onFeed .a fun f =>
    { f with watch := { f.watch with armed := true, blocks := 8, bad := bad, iOpen := f.rs.i + 1 } }

/-- R29, R30, R94: the second bad period confirms the loss, and the aligned standby takes over. -/
theorem test_watchPeriodClose :
    told (exec (.watchPeriodClose .a) (watching air 1)) = [(.lanelost, [0, 0, 1, 0]), (.failover, [2, 0, 0, 0])] ∧
    (after (exec (.watchPeriodClose .a) (watching air 1))).sel.state = .xfade .a := by decide +kernel

theorem test_watchPeriodClose_first : (after (exec (.watchPeriodClose .a) (watching air 0))).feedA.watch.bad = 1 := by
  decide +kernel

/-- R33: the default setup, and W = 4 too short in a 48 kHz house for a pulled-down 48 kHz feed in a 96 kHz house. -/
theorem test_feedset :
    answerOf (exec (.feedset 0x34 [0, 0, 0, 0, 1, 16, 11, 3]) up) .feedA = (.ok, []) ∧
    answerOf (exec (.feedset 0x34 [0, 0, 0, 2, 1, 16, 11, 2]) { up with clock := { up.clock with rateClass := .k96 } }) .feedA =
      (.range, [2]) := by decide +kernel

/-- R33, R38: 97 channels are no setup, and 48 channels of D = 8192 find no room in 192 pages. -/
theorem test_feedset_refused :
    answerOf (exec (.feedset 0x34 [0, 0, 0, 0, 2, 97, 11, 3]) up) .feedA = (.range, [1]) ∧
    answerOf (exec (.feedset 0x34 [0, 0, 0, 0, 1, 48, 13, 3]) up) .feedA = (.noRoom, []) := by decide +kernel

/-- R50: S = 100, and the ring begins at frame 96. -/
theorem test_play :
    answerOf (exec (.play 0x34 [0, 0, 0, 0, 0, 100, 0, 0, 0, 0]) up) .feedA = (.ok, [0]) ∧
    (after (exec (.play 0x34 [0, 0, 0, 0, 0, 100, 0, 0, 0, 0]) up)).feedA.h = 96 ∧
    (after (exec (.play 0x34 [0, 0, 0, 0, 0, 100, 0, 0, 0, 0]) up)).feedA.rs.i = 100 := by decide +kernel

/-- R49: a last frame beyond 2^40 - 2. -/
theorem test_play_range :
    answerOf (exec (.play 0x34 [0, 0xFF, 0xFF, 0xFF, 0xFF, 0xFF, 0, 0, 0, 1]) up) .feedA = (.range, []) := by decide +kernel

theorem test_stop :
    answerOf (exec (.stop 0x35 [1, 0]) (up.onFeed .b fun f => { f with st := .seeking })) .feedB = (.ok, [2]) ∧
    told (exec (.stop 0x35 [1, 0]) (up.onFeed .b fun f => { f with st := .seeking })) = [(.feeddone, [1, 3, 0, 0])] := by
  decide +kernel

/-- R61: an on-air STOP waits. -/
theorem test_stop_waits : (after (exec (.stop 0x34 [0, 1]) air)).sel.awaiting = [⟨.stop .feedA .a false, false⟩] ∧
    (after (exec (.stop 0x34 [0, 1]) air)).executing .feedA = true := by decide +kernel

/-- R100: a handover with an aligned standby is a crossfade, and without one a fade. -/
theorem test_stopOnAirTake :
    let s := doing .feedA 0x12 (air.onSel fun v => { v with awaiting := [⟨.stop .feedA .a true, true⟩] })
    answerOf (exec (.stopOnAirTake .feedA) s) .feedA = (.ok, [3]) ∧
    answerOf (exec (.stopOnAirTake .feedA) (s.onSel fun v => { v with aligned := false })) .feedA = (.ok, [4]) := by
  decide +kernel

theorem test_feedack :
    answerOf (exec (.feedack 0x34 [0]) (up.onFeed .a isDone)) .feedA = (.ok, [1, 0, 0, 0, 0, 7, 0]) ∧
    answerOf (exec (.feedack 0x34 [0]) up) .feedA = (.nothing, []) := by decide +kernel

theorem test_feedstat : (answerOf (exec (.feedstat 0x36 [1]) air) .render).2.length = 83 ∧
    (answerOf (exec (.feedstat 0x36 [1]) air) .render).2.take 3 = [1, 3, 2] := by decide +kernel

/-- R89: the crossfade's end makes the RUNNING outgoing feed the standby. -/
theorem test_transitionEnd :
    (after (exec .transitionEnd (cross.onSel fun v => { v with n := 256 }))).sel.state = .onair .b ∧
    (after (exec .transitionEnd (cross.onSel fun v => { v with n := 256 }))).feedA.role = .standby ∧
    (after (exec .transitionEnd (cross.onSel fun v => { v with n := 255 }))).sel.state = .xfade .a := by decide +kernel

theorem test_onair : (after (exec (.onair 0x37 [1]) air)).sel.awaiting = [⟨.onair 1, false⟩] := by decide +kernel

theorem test_onairTake :
    answerOf (exec .onairTake (doing .system 0x45 (air.onSel fun v => { v with awaiting := [⟨.onair 1, true⟩] }))) .system =
      (.ok, [3]) ∧
    answerOf (exec .onairTake (doing .system 0x45 (air.onSel fun v => { v with awaiting := [⟨.onair 0, true⟩] }))) .system =
      (.nothing, []) := by decide +kernel

/-- An ONAIR of B, and after it a STOP of A, both due. -/
def inOrder : State :=
  doing .feedA 0x12 (doing .system 0x45 (air.onSel fun v =>
    { v with awaiting := [⟨.onair 1, true⟩, ⟨.stop .feedA .a true, true⟩] }))

/-- R100: the ONAIR that came first is taken first, whatever falls due with it. -/
theorem test_arrival_order :
    (exec (.stopOnAirTake .feedA) inOrder = .next inOrder) ∧
    answerOf (.next (dueOrders inOrder)) .system = (.ok, [3]) ∧
    answerOf (.next (dueOrders inOrder)) .feedA = (.ok, [4]) := by
  refine ⟨rfl, ?_⟩
  decide +kernel

/-- R99, R105: a rise that is faded back before its first house sample: the feed last heard is the one before it. -/
theorem test_fadeBack_unheard :
    told (.next (fadeBack .b .laneLost ((at_ (.rise .b) (up.onFeed .b lead)).onSel fun v => { v with lastHeard := some .a }))) =
      [(.silence, [0, 2, 0, 0]), (.feeddone, [1, 4, 0, 0])] := by decide +kernel

/-- R104: a kx below 5 is clamped. -/
theorem test_policy : answerOf (exec (.policy 0x37 [1, 1, 4]) up) .system = (.clamped, [1, 1, 5]) ∧
    answerOf (exec (.policy 0x37 [1, 1, 4]) cross) .system = (.busy, []) := by decide +kernel

theorem test_scnopen : answerOf (exec (.scnopen 0x36 [0]) up) .render = (.ok, [0, 0]) ∧
    (after (exec (.scnopen 0x36 [1]) up)).scene.copy = .waiting := by decide +kernel

/-- R113: releasing routes are not copied. -/
theorem test_sceneCopy :
    answerOf (exec .sceneCopy (doing .render 0x20 { up with scene := { sealedScene with state := .building, copy := .due } }))
      .render = (.ok, [0, 4]) := by decide +kernel

/-- A bank being built with no entries. -/
def building : State := { up with scene := { sceneReset with state := .building } }

/-- R115: k = 12 is stored as 11. -/
theorem test_routeset :
    answerOf (exec (.routeset 0x36 [7, 2, 0x30, 0, 0, 12]) building) .render = (.clamped, [0, 1, 0, 1, 0, 1]) ∧
    (after (exec (.routeset 0x36 [7, 2, 0x30, 0, 0, 12]) building)).scene.pendingBank = [⟨7, 2, 3145728, 11⟩] := by
  decide +kernel

theorem test_routeset_range : answerOf (exec (.routeset 0x36 [95, 63, 0, 0, 0, 0, 0, 64, 0, 0, 0, 0]) building) .render =
    (.range, [1, 1]) := by decide +kernel

theorem test_routedrop :
    answerOf (exec (.routedrop 0x36 [7, 2, 7, 3]) { up with scene := { sealedScene with state := .building } }) .render =
      (.ok, [1, 1, 0, 3]) := by decide +kernel

theorem test_scnseal : answerOf (exec (.scnseal 0x36 [12]) building) .render = (.clamped, [0, 0, 11]) ∧
    (after (exec (.scnseal 0x36 [12]) building)).scene.state = .sealed 11 := by decide +kernel

theorem test_scndiscard : answerOf (exec (.scndiscard 0x36 []) { up with scene := sealedScene }) .render =
    (.ok, [0, 4, 2]) := by decide +kernel

theorem test_scntake : (after (exec (.scntake 0x36 []) { up with scene := sealedScene })).scene.take = .waiting ∧
    answerOf (exec (.scntake 0x36 []) building) .render = (.nothing, []) := by decide +kernel

/-- spec/07, Worked sequence: 4 routes entered, 2 releasing and 0 cut. -/
theorem test_take :
    answerOf (exec .take (doing .render 0x25 { up with scene := { sealedScene with take := .due } })) .render =
      (.ok, [4, 2, 0]) := by decide +kernel

/-- R125: the last step of the route named, and of no other. -/
theorem test_rampEnd :
    (after (exec (.rampEnd 1 9) { up with scene := { sceneReset with
        active := [⟨1, 9, 0, 2, 250001, -250000, 1, true⟩, ⟨1, 10, 0, 2, 250001, -250000, 1, true⟩] } })).scene.active.map
      (fun e => e.gain) = [0, 250001] := by decide +kernel

theorem test_scnstat : answerOf (exec (.scnstat 0x34 []) { up with scene := sealedScene }) .feedA =
    (.ok, [2, 0, 0, 4, 2, 0, 0, 5, 0, 1, 0, 2, 8, 0, 6, 0, 0, 0]) := by decide +kernel

/-- The key (3, 5) of the active bank: target 0, k 3, gain 600,000, step -150,000, remaining 4, releasing. -/
theorem test_scnstat_key :
    ((answerOf (exec (.scnstat 0x36 [3, 5]) { up with scene := sealedScene }) .render).2.drop 18).take 15 =
      [1, 0, 0, 0, 3, 0x09, 0x27, 0xC0, 0xFF, 0xFD, 0xB6, 0x10, 0, 4, 1] := by decide +kernel

/-- R148: the last mute step makes the pending delay the delay. -/
theorem test_duckEnd :
    ((after (exec (.duckEnd 0) (out0 (fun o => { o with m := 65536, pendingDelay := some 300 }) up))).outs.getD 0 outReset).delay = 300 ∧
    ((after (exec (.duckEnd 0) (out0 (fun o => { o with m := 131072, pendingDelay := some 300 }) up))).outs.getD 0 outReset).delay = 0 := by
  decide +kernel

theorem test_generalCall : told (exec (.generalCall [0x71]) up) = [(.mute, [1, 0, 1, 0])] ∧
    (after (exec (.generalCall [0x72]) up)).gcMute = false := by decide +kernel

theorem test_groupset : answerOf (exec (.groupset 0x37 [7, 1]) up) .system = (.ok, [0]) ∧
    (after (exec (.groupset 0x37 [7, 1]) up)).groups = 0x80 := by decide +kernel

/-- R147: a duck begins; with m = 0 the delay changes at once. -/
theorem test_outset :
    answerOf (exec (.outset 0x37 [0, 0x40, 0, 0, 1, 44, 0, 0]) up) .system =
      (.ok, [0x40, 0, 0, 0, 0, 1, 44, 0, 0, 1, 44, 2]) ∧
    answerOf (exec (.outset 0x37 [0, 0x40, 0, 0, 1, 44, 0, 0]) (out0 (fun o => { o with m := 0 }) up)) .system =
      (.ok, [0x40, 0, 0, 1, 44, 0xFF, 0xFF, 0, 0, 1, 44, 1]) := by decide +kernel

/-- R146, R176: the lock refuses a new trim; a trim of 2^23 has no meaning. -/
theorem test_outset_refused :
    answerOf (exec (.outset 0x37 [0, 0x40, 0, 1, 0, 0, 0, 0]) { up with bus := { up.bus with lock := true } }) .system =
      (.locked, []) ∧
    answerOf (exec (.outset 0x37 [0, 0x80, 0, 0, 0, 0, 0, 0]) up) .system = (.range, [1]) := by decide +kernel

theorem test_outstat :
    answerOf (exec (.outstat 0x34 [63, 1]) (up.onOut 63 fun o => { o with clip := true })) .feedA =
      (.ok, [63, 0x40, 0, 0, 0, 0, 0xFF, 0xFF, 0, 0, 0x40, 0, 0, 1, 0, 1, 0, 0, 0, 0, 0, 0]) ∧
    ((after (exec (.outstat 0x34 [63, 1]) (up.onOut 63 fun o => { o with clip := true }))).outs.getD 63 outReset).clip = false := by
  decide +kernel

/-- R156: a trigger at the position is late. -/
theorem test_cuepost :
    answerOf (exec (.cuepost 0x37 [9, 0, 0, 0, 0, 5, 4, 0]) (up.onSel fun v => { v with pos := 5 })) .system =
      (.late, [1, 0, 0, 0, 0, 0, 5]) ∧
    answerOf (exec (.cuepost 0x37 [9, 0, 0, 0, 0, 5, 5, 0]) up) .system = (.range, []) := by decide +kernel

/-- A list of two cues with one tag, of two posters. -/
def listed : State :=
  { up with cues := [⟨1, .render, 10, .mark, 0, false⟩, ⟨1, .system, 10, .groupMute, 2, true⟩] }

/-- R158: only the sender's own cues. -/
theorem test_cuecancel : answerOf (exec (.cuecancel 0x37 [1]) listed) .system = (.ok, [1, 1]) ∧
    (after (exec (.cuecancel 0x37 [1]) listed)).cues.map (fun c => c.poster) = [.render] := by decide +kernel

theorem test_cuestat : answerOf (exec (.cuestat 0x35 []) listed) .feedB =
    (.ok, [2, 1, 1, 1, 2, 0, 0, 0, 0, 10, 4, 0, 0, 1, 3, 0, 0, 0, 0, 10, 1, 2, 1]) := by decide +kernel

/-- R11: to EXTERNAL the unit is in HOLDOVER; an N of 30 is out of range. -/
theorem test_clockset :
    (after (exec (.clockset 0x37 [1, 0, 255]) up)).clock.state = .holdover ∧
    answerOf (exec (.clockset 0x37 [1, 0, 30]) up) .system = (.range, []) := by decide +kernel

/-- spec/03: 192 pages hold 96 channels of D = 2048; no page for feed B replaces its setup. -/
theorem test_partition :
    answerOf (exec (.partition 0x37 [0, 192, 0, 0, 1, 0x2C]) up) .system = (.clamped, [0x10, 0, 0, 4, 1]) ∧
    answerOf (exec (.partition 0x37 [4, 0, 0, 1, 0, 0]) up) .system = (.range, []) := by decide +kernel

theorem test_ident : answerOf (exec (.ident 0x36 []) up) .render =
    (.ok, [0x3C, 0x61, 0x64, 0x96, 0x01, 0x00, 0x02, 0x01]) := by decide +kernel

/-- R183: the lowest kind first, and the line low while a record is left. -/
theorem test_notefetch :
    let s := raise .clock [0, 0, 0, 0] (raise .damage [0, 1, 0, 2] up)
    answerOf (exec (.notefetch 0x37 []) s) .system = (.ok, [8, 1, 0, 1, 0, 2, 0, 0, 0, 0, 1]) ∧
    (after (exec (.notefetch 0x37 []) s)).notices.alertLow.r3 = true := by decide +kernel

theorem test_progstat : (answerOf (exec (.progstat 0x37 []) air) .system).2.length = 64 ∧
    ((answerOf (exec (.progstat 0x37 []) air) .system).2.drop 12).take 11 = [0, 192, 0, 192, 2, 128, 32, 0, 31, 255, 3] := by
  decide +kernel

/-- R185: in list order, so the last target of a kind stands. -/
theorem test_noteroute :
    (answerOf (exec (.noteroute 0x37 [1, 0, 1, 255]) up) .system).2 =
      [255, 3, 3, 3, 3, 3, 3, 3, 3, 3, 3, 3, 3, 3, 3, 3, 1] ∧
    answerOf (exec (.noteroute 0x37 [1, 0, 17, 0]) up) .system = (.range, [1]) := by decide +kernel

theorem test_callock : (after (exec (.callock 0x37 []) up)).bus.lock = true ∧
    answerOf (exec (.callock 0x37 []) { up with bus := { up.bus with lock := true } }) .system = (.nothing, []) := by
  decide +kernel

/-- R108, R177: SILENT, with the position kept; the command stays in execution. -/
theorem test_flush : (after (exec (.flush 0x37 []) air)).sel.state = .silent ∧
    (after (exec (.flush 0x37 []) air)).executing .system = true := by decide +kernel

/-- The answer tells the state found: ONAIR_A, no route, two cues. -/
theorem test_flushComplete :
    answerOf (exec .flushComplete (doing .system 0x49 { up with bus := { up.bus with flush := some ⟨1, 0, 2⟩ } })) .system =
      (.ok, [1, 0, 0, 2]) := by decide +kernel

theorem test_frameFormatError : answerOf (exec (.frameFormatError 0x34 [0x11, 10, 0]) up) .feedA = (.format, []) ∧
    ((after (exec (.frameFormatError 0x34 [0x11, 10, 0]) up)).bus.records.get .feedA).echo = 0x11 := by decide +kernel

/-- spec/10, Worked sequence: short, long and probed frames: what is acknowledged after the address in frames a to g; a
length byte above 250; a general call; the address of a role whose command is in execution. -/
theorem test_busAcks :
    ([[], [0x11, 9, 0, 0, 0, 0, 0], [0x13, 1, 0, 0x7F], [0x13, 1, 1], [0x13, 1, 2], [0x5E, 0], [0x13, 1, 0]].map
      fun b => up.busAcks 0x34 b) =
      [some [], some (List.replicate 7 true), some [true, true, true, false], some (List.replicate 3 true),
        some (List.replicate 3 true), some [true, true], some (List.replicate 3 true)] ∧
    up.busAcks 0x34 [1, 251, 0] = some [true, false, false] ∧ up.busAcks 0 [0x71, 0x70] = some [true, false] ∧
    up.busAcks 0 [0x72] = some [false] ∧ (doing .feedA 0x11 up).busAcks 0x34 [1, 0] = none := by decide +kernel

theorem test_busStall : told (exec (.busStall 0x36 .read [1, 2]) up) = [(.busabandon, [2, 1, 0, 2])] ∧
    told (exec (.busStall 0 .write [0x71]) up) = [(.mute, [1, 0, 1, 0]), (.busabandon, [4, 0, 0, 1])] := by decide +kernel

/-- A two-lane streaming feed of 64 channels with the state of spec/02's pairing sequence. -/
def pairing : State :=
  up.onFeed .a fun f =>
    { lead f with
      setup := { f.setup with n := 64, lanes := 2 }, h := 11008, s0 := 9000 / 32 * 32, startPos := 9000
      last0 := some 10976, last1 := some 10976, rs := { f.rs with i := 10100 } }

/-- spec/02, Worked sequence: pairing, damage, a gap and skew: the ten arrivals, the slots they leave, the head and
DAMAGE four times. -/
theorem test_pairing :
    let s := [(Lane.l0, 11008, true), (.l1, 11008, true), (.l0, 11040, false), (.l1, 11040, true), (.l0, 11104, true),
      (.l1, 11072, true), (.l0, 11136, true), (.l0, 11168, true), (.l1, 11104, true), (.l1, 11136, true)].foldl
      (fun s v => placed .a v.1 v.2.1 v.2.2 false [] s) pairing
    ([11008, 11040, 11072, 11104, 11136, 11168].map fun t => (s.feedA.slotAt t).state) =
      [.good, .damaged, .damaged, .damaged, .good, .filling] ∧ s.feedA.h = 11200 ∧
    (s.feedA.last0, s.feedA.last1) = (some 11168, some 11136) ∧
    s.notices.queues.r3.map (fun v => (v.kind, v.count, v.detail)) = [(.damage, 4, [0, 3, 1, 91])] := by decide +kernel

/-- R29: a block that is placed after the intake has ended sets no mark; the same block with no end does. -/
theorem test_mark_after_end :
    ([some 11000, none].map fun e =>
      (placed .a .l1 11008 true false [] (placed .a .l0 11008 true false [] (pairing.onFeed .a fun f =>
        { f with h := 11008, sourceEnd := e, watch := { f.watch with armed := true } }))).feedA.watch.marks) =
      [⟨false, false⟩, ⟨true, true⟩] := by decide +kernel

/-! ## Witnesses: states and operands that meet the premises of each statement, clause by clause -/

/-- A premise over the value of an Option that is none. -/
theorem none_meets {α : Type} {o : Option α} (h : o = none) (p : α → Prop) : ∀ a, o = some a → p a := by simp [h]

/-- A premise over the value of an Option that is known. -/
theorem some_meets {α : Type} {o : Option α} {v : α} (h : o = some v) {p : α → Prop} (hp : p v) :
    ∀ a, o = some a → p a := by
  rintro a ha
  rw [h] at ha
  cases ha
  exact hp

/-- A premise over both feeds. -/
theorem both {p : Side → Prop} (ha : p .a) (hb : p .b) : ∀ x, p x := fun x => by cases x <;> assumption

theorem witness_StepRunsFront : { up with pending := [.lossCondition] }.pending = .lossCondition :: [] := rfl

/-- The divider one period before its terminal count or two, and the loss measure at a count. -/
def counting (div measure : Nat) (s : State) : State :=
  { s with clock := { s.clock with divCount := div, lossMeasure := measure } }

/-- Nothing is due in a state with an empty queue. -/
abbrev Rests (s : State) : Prop := s.pending = [] ∧ s.mclkStopped = false ∧ settle s = s

/-- The part with its master clock stopped. -/
def unclocked (s : State) : State := { s with mclkStopped := true }

theorem witness_QueueAndIdle :
    (∃ t, exec .lossCondition up = .next t) ∧ up.clock.state = .internal ∧ up.mclkStopped = false ∧
    ((unclocked up).pending = [] ∧ (unclocked up).mclkStopped = true) ∧
    (∀ s ∈ [counting 510 0 up, counting 511 0 up], Rests s) ∧
    (∀ s ∈ [counting 510 2046 (following up), counting 511 2047 (following up)], Rests s ∧ s.clock.state = .following) ∧
    (∀ s ∈ [counting 510 2046 (holding .waiting 2 up), counting 511 2047 (holding .waiting 2 up)],
      Rests s ∧ s.clock.state = .holdover) ∧
    510 + 1 < 4 * (up.clock.loadedN + 1) ∧ 4 * (up.clock.loadedN + 1) ≤ 511 + 1 ∧ 2046 + 1 < 2048 ∧ 2048 ≤ 2047 + 1 := by
  refine ⟨⟨_, rfl⟩, rfl, rfl, ⟨rfl, rfl⟩, ?_, ?_, ?_, by decide⟩ <;> decide +kernel

theorem witness_ResetLine : held.resetLine = true ∧ held.clock.state = .internal ∧ held.mclkStopped = false ∧
    ((unclocked held).resetLine = true ∧ (unclocked held).mclkStopped = true) ∧
    ((following held).resetLine = true ∧ (following held).clock.state = .following) ∧
    ((holding .idle 0 held).resetLine = true ∧ (holding .idle 0 held).clock.state = .holdover) ∧
    (match Instr.returnPeriodGood with
      | .powerOn _ | .resetAssert | .resetRelease _ | .dividerTerminalCount _ | .wordClockEdge _ | .wordClockLoss
      | .lossCondition | .wordParityFault _ => False
      | _ => True) := by decide +kernel

theorem witness_FrameJudged :
    ((Instr.ident 0x34 []).frame = some (0x01, 0x34, []) ∧ held.resetLine = true ∧ roleAt up.bus.strap 0x33 = none ∧
      roleAt up.bus.strap 0x38 = none ∧ roleAt up.bus.strap 0x34 = some .feedA ∧
      (doing .feedA 0x11 up).bus.slots.get .feedA = .executing 0x11) ∧
    (up.Hears 0x34 .feedA ∧ up.Hears 0x36 .render ∧ up.Hears 0x37 .system ∧ DeniedTo 0x10 .render ∧ DeniedTo 0x13 .render ∧
      DeniedTo 0x20 .system ∧ DeniedTo 0x25 .feedA ∧ DeniedTo 0x30 .feedA ∧ DeniedTo 0x31 .feedA ∧ DeniedTo 0x40 .render ∧
      DeniedTo 0x49 .feedA ∧ ¬ DeniedTo 0x10 .feedA ∧ ¬ DeniedTo 0x14 .render ∧ ¬ DeniedTo 0x26 .feedA ∧
      (Instr.feedset 0x34 [2]).frame = some (0x10, 0x34, [2]) ∧ (Instr.feedstat 0x36 []).frame = some (0x14, 0x36, []) ∧
      (Instr.scnstat 0x34 []).frame = some (0x26, 0x34, [])) ∧
    (State.reset.Hears 0x34 .feedA ∧ State.reset.clock.phase = .starting ∧ (0 : Byte).toNat ≤ 1 ∧
      ¬ (Role.feedA = Role.feedA ∧ (0 : Byte) = 1 ∨ Role.feedA = Role.feedB ∧ (0 : Byte) = 0)) ∧
    (judge 0x10 .feedA (List.replicate 7 0) up.starting = none ∧ goodLength 0x10 7 = false ∧
      judge 0x21 .render (List.replicate 246 0) up.starting = none ∧ goodLength 0x21 246 = false ∧
      judge 0x47 .system (List.replicate 34 0) up.starting = none ∧ goodLength 0x47 34 = false ∧
      judge 0x01 .render [0] up.starting = none ∧ goodLength 0x01 1 = false) := by and_intros <;> decide +kernel

theorem witness_FrameFormat : held.resetLine = true ∧ ((0x33 : BitVec 7) ≠ 0 ∧ roleAt up.bus.strap 0x33 = none) ∧
    (roleAt up.bus.strap 0x34 = some .feedA ∧ (doing .feedA 0x11 up).executing .feedA = true) ∧
    up.resetLine = false ∧ [(0x71 : Byte), 0x70][1]? = some 0x70 ∧ 249 < (List.replicate 251 (0 : Byte)).length ∧
    up.Hears 0x34 .feedA ∧ 250 < (251 : Byte).toNat ∧ ([] : List Byte).length ≠ (1 : Byte).toNat ∧
    (knownCode 0x04 = false ∧ knownCode 0x4A = false ∧ [(7 : Byte)].length = (1 : Byte).toNat) ∧
    (Instr.ident 0x34 []).frame = some (0x01, 0x34, []) ∧ ([] : List Byte).length = (0 : Byte).toNat ∧
    (0 : Byte).toNat ≤ 250 := by decide +kernel

theorem witness_BusStall : up.resetLine = false ∧ up.bus.frame = none ∧ up.bus.stallTimer = false ∧
    roleAt up.bus.strap 0x34 = some .feedA ∧ roleAt up.bus.strap 0x37 = some .system ∧ up.executing .feedA = false ∧
    ((doing .feedA 0x11 up).bus.frame = none ∧ (doing .feedA 0x11 up).bus.stallTimer = false ∧
      (doing .feedA 0x11 up).executing .feedA = true) ∧
    ((0x33 : BitVec 7) ≠ 0 ∧ roleAt up.bus.strap 0x33 = none) := by decide +kernel

theorem witness_ReadRecord : up.resetLine = false ∧ roleAt up.bus.strap 0x37 = some .system ∧
    (List.replicate 250 (0 : Byte)).length ≤ 250 ∧ roleAt up.bus.strap 0x34 = some .feedA ∧ Role.feedA ≠ Role.system := by
  decide +kernel

/-- A state whose next house sample is a block event or is not, with a STOP, a take and a copy that wait and a lane
block that feed A receives; feed A's watch is armed. -/
def falling (last : Bool) : State :=
  let s := (solo.onFeed .a fun f =>
    { f with rx0 := .heading [] 1, watch := { f.watch with armed := true } }).onSel fun v =>
      { v with awaiting := [⟨.stop .feedA .a true, false⟩] }
  { s with
    clock := { s.clock with counter := if last then 31 else 30 }
    scene := { s.scene with take := .waiting, copy := .waiting } }

/-- R15, R29, R61, R113, R119: what the fall of a block event marks, and that no other house sample marks it. -/
theorem test_blockFalls :
    ([true, false].map fun last =>
      let t := houseSample quietReads (falling last)
      (t.blockDue, t.sel.awaiting.map fun e => e.due, t.scene.take, t.scene.copy, t.feedA.rx0, t.feedA.watch.blocks)) =
      [(true, [true], .due, .due, .heading [] 2, 1), (false, [false], .waiting, .waiting, .heading [] 1, 0)] := by
  decide +kernel

/-- What a row leaves. -/
theorem takes_exists : ∃ take : State → Instr → State, ∀ c s t, exec c s = .next t → take s c = t :=
  ⟨fun s c => match exec c s with | .next t => t | _ => s, fun c s t h => by simp [h]⟩

theorem witness_ClockEvents_falls :
    ((falling true).resetLine = false ∧ ((falling true).clock.counter + 1).toNat % 32 = 0 ∧
      (falling true).clock.phase = .running ∧ (falling true).feedA.watch.armed = true ∧
      (falling true).feedA.intakeEnded = false ∧ (houseSample quietReads (falling true)).feedA.inPlay = true ∧
      (falling true).feedB.watch.armed = false) ∧
    ((falling false).resetLine = false ∧ ((falling false).clock.counter + 1).toNat % 32 ≠ 0) ∧
    (State.reset.resetLine = false ∧ State.reset.clock.phase = .starting) := by decide +kernel

theorem witness_ClockEvents :
    (up = settle up ∧ up.resetLine = false ∧ up.clock.state = .internal ∧ up.mclkStopped = false) ∧
    (unclocked up = settle (unclocked up) ∧ (unclocked up).resetLine = false ∧ (unclocked up).mclkStopped = true) ∧
    (up = { settle up with mclkStopped := false } ∧ unclocked up = { settle up with mclkStopped := true }) ∧
    (following up = settle (following up) ∧ (following up).resetLine = false ∧ (following up).clock.state = .following) ∧
    (holding .idle 0 up = settle (holding .idle 0 up) ∧ (holding .idle 0 up).clock.watch = .idle) ∧
    (holding (.counting 0) 0 up = settle (holding (.counting 0) 0 up) ∧
      (holding (.counting 0) 0 up).clock.state = .holdover ∧ (holding (.counting 0) 0 up).clock.watch = .counting 0) := by
  decide +kernel

theorem witness_ClockWatch : (unclocked up).mclkStopped = true ∧ up.mclkStopped = false ∧ up.clock.state ≠ .following ∧ (following up).clock.state = .following ∧
    (following held).resetLine = true ∧ (holding (.counting 0) 0 up).clock.watch ≠ .idle ∧
    (holding .idle 0 up).clock.watch = .idle ∧
    ((holding (.counting 1023) 0 up).resetLine = false ∧ (holding (.counting 1023) 0 up).clock.watch = .counting 1023) ∧
    ((holding (.counting 1024) 0 up).clock.watch = .counting 1024 ∧ (holding (.counting 1024) 0 up).clock.good = 0) ∧
    (holding (.counting 1024) 1 up).clock.good = 1 := by decide +kernel

/-- The part with the calibration lock set. -/
def locked : State := { up with bus := { up.bus with lock := true } }

/-- A feed that fails check 2 of R33 in a 96 kHz house, with a PLAY pending. -/
def pulled : State :=
  up.onFeed .a fun f =>
    { isDone f with setup := setupAt .k48 .pullDown 2, pendingPlay := some { pos := 0, count := 0 } }

theorem witness_Clockset :
    (up.Serves 0x37 .system ∧ up.bus.lock = false ∧ locked.Serves 0x37 .system ∧ locked.bus.lock = true) ∧
    (1 < (2 : Byte).toNat ∧ (30 : Byte).toNat < 31 ∧ (1 : Byte).toNat ≤ 1 ∧ 31 ≤ (31 : Byte).toNat) ∧
    ((1 : Byte).toNat ≠ up.clock.rateClass.code ∧ (0 : Byte).toNat = up.clock.rateClass.code) ∧
    ({ up with scene := sealedScene }.Serves 0x37 .system ∧ sealedScene.active ≠ []) ∧
    (building.Serves 0x37 .system ∧ building.scene.active = [] ∧ building.scene.state ≠ .free) ∧
    (solo.Serves 0x37 .system ∧ (caughtUp solo).feedA.inPlay = true) ∧
    ((caughtUp (up.onFeed .b lead)).feedB.inPlay = true ∧ (up.onFeed .b lead).Serves 0x37 .system) ∧
    (Rate.k96 ≠ up.clock.rateClass ∧ up.scene.active = [] ∧ up.scene.state = .free ∧ up.sel.state.inTransition = false ∧
      up.feedA.inPlay = false ∧ up.feedB.inPlay = false ∧ up.feedA.setup.passes .k96 = true) ∧
    (pulled.Serves 0x37 .system ∧ pulled.bus.lock = false ∧ Rate.k96 ≠ pulled.clock.rateClass ∧ pulled.scene.active = [] ∧
      pulled.scene.state = .free ∧ pulled.sel.state.inTransition = false ∧ pulled.feedA.inPlay = false ∧
      pulled.feedB.inPlay = false ∧ pulled.feedA.setup.passes .k96 = false) := by decide +kernel

/-- A block event that has fallen in STARTING, with the scrub at a page. -/
def scrubbing (page : Nat) : State :=
  { State.reset with blockDue := true, clock := { State.reset.clock with scrubPage := page } }

theorem witness_ScrubAndStartup :
    ((scrubbing 1023).resetLine = false ∧ (scrubbing 1023).blockDue = true ∧ (scrubbing 1023).clock.phase = .starting ∧
      (scrubbing 1023).sel.over = false ∧ (scrubbing 1023).clock.scrubPage < 1024) ∧
    ((scrubbing 1024).blockDue = true ∧ (scrubbing 1024).clock.phase = .starting ∧ (scrubbing 1024).sel.over = false ∧
      1024 ≤ (scrubbing 1024).clock.scrubPage) ∧
    up.clock.phase = .running ∧ up.blockDue = false := by decide +kernel

theorem witness_BlockEventSamples :
    ({ holding .waiting 2 up with blockDue := true }.resetLine = false ∧ (holding .waiting 2 up).clock.state = .holdover ∧
      (holding .waiting 2 up).clock.good = 2 ∧ (holding .waiting 2 up).notices.routing.getD 13 none = some .system) ∧
    ({ up with blockDue := true }.resetLine = false ∧
      ¬ ({ up with blockDue := true }.clock.state = .holdover ∧ { up with blockDue := true }.clock.good = 2)) ∧
    ({ up with blockDue := true, muteLast := true }.notices.routing.getD 14 none = some .system ∧
      true = { up with blockDue := true, muteLast := true }.muteLast ∧
      true ≠ { up with blockDue := true, muteLast := true }.muteAccepted ∧ up.gcMute = false) ∧
    ({ up with blockDue := true }.clock.phase = .running ∧ { up with blockDue := true }.sel.over = false) ∧
    (∀ u, removeReleased u = { u with scene := { u.scene with
      active := u.scene.active.filter fun e : ActiveRoute => !(e.releasing && e.gain == 0) } }) :=
  ⟨by decide +kernel, by decide +kernel, by decide +kernel, by decide +kernel, fun _ => rfl⟩

/-- Feed A with a receiver on lane 0. -/
def receiving (body : List Byte) (due silent : Nat) (s : State) : State :=
  s.onFeed .a fun f => { f with rx0 := .receiving (header 0 1 0 0) body due silent }

/-- Feed A with a header of so many bytes received. -/
def headed (got : List Byte) (silent : Nat) : State := up.onFeed .a fun f => { f with rx0 := .heading got silent }

/-- Feed A of `asking` where lane 0 has begun, with its receiver and the window as given. -/
def going (mode : FeedMode) (isOpen : Bool) (r : Receiver) : State :=
  (asking mode 5 false).onFeed .a fun f =>
    { f with rx0 := r, pace := { f.pace with isOpen := isOpen, begun := { l0 := true, l1 := false } } }

/-- R26, R28: a beginning closes a BURST window that waits for this lane alone; the end of the block, here by
abandonment, answers a SINGLE request and opens a new BURST window. -/
theorem test_paceMarks :
    (after (exec (.laneBlockBegin .a .l0 (header 0 1 0 0)) (asking .burst 5 false))).feedA.pace.isOpen = false ∧
    (after (exec (.laneBlockBegin .a .l0 (header 0 1 0 0)) (asking .single 5 false))).feedA.pace.isOpen = true ∧
    (after (exec (.laneBlockAbandon .a .l0) (going .single true (.heading [] 2)))).feedA.pace.isOpen = false ∧
    (after (exec (.laneBlockAbandon .a .l0) (going .burst false (.heading [] 2)))).feedA.pace.isOpen = true := by
  decide +kernel

theorem witness_LaneReceiver :
    ((∀ b ∈ [(0 : Byte), 0xD2], b ≠ 0x6B) ∧ (List.replicate 7 (0 : Byte)).length < 8 ∧
      ((up.onFeed .a fun f => { f with rx0 := .halfSync }).feed .a).rx .l0 = .halfSync ∧
      ((headed [0] 1).feed .a).rx .l0 = .heading [0] 1 ∧ ((headed [0] 2).feed .a).rx .l0 = .heading [0] 2 ∧
      (headed [0] 2).resetLine = false ∧ ∃ u, exec (.laneBlockArrive .a .l0 [0x6B]) up = .next u) ∧
    (up.resetLine = false ∧ (up.feed .a).rx .l0 = .hunting ∧ (up.feed .a).pace.isOpen = false ∧
      (up.feed .a).setup.mode = .streaming) ∧
    ((asking .single 0 false).resetLine = false ∧ ((asking .single 0 false).feed .a).rx .l0 = .hunting ∧
      ((asking .single 0 false).feed .a).pace.isOpen = true ∧ 1 ≤ (header 0 1 0 0).count.toNat ∧
      (header 0 48 0 0).count.toNat ≤ 48 ∧ (header 0 0 0 0).count.toNat = 0 ∧ 48 < (header 0 49 0 0).count.toNat) ∧
    ((asking .burst 0 false).resetLine = false ∧ ((asking .burst 0 false).feed .a).rx .l0 = .hunting ∧
      ((asking .burst 0 false).feed .a).pace.isOpen = true ∧ ((asking .burst 0 false).feed .a).setup.lanes = 1) ∧
    (∀ m ∈ [FeedMode.single, .burst], ∀ b ∈ [false, true], (going m b (.heading [] 2)).resetLine = false ∧
      ((going m b (.heading [] 2)).feed .a).rx .l0 = .heading [] 2 ∧
      ((going m b (.heading [] 2)).feed .a).pace.begun.get .l0 = true ∧
      ((going m b (.heading [] 2)).feed .a).pace.line = true ∧ ((going m b (.heading [] 2)).feed .a).pace.isOpen = b) ∧
    ((pairing.feed .a).setup.lanes = 2 ∧ (pairing.feed .a).rx .l1 = .hunting) ∧
    (held.resetLine = true ∧ (up.feed .a).setup.lanes ≠ 2 ∧ ((receiving [] 98 0 up).feed .a).rx .l0 ≠ .hunting) ∧
    ((receiving [] 98 0 up).resetLine = false ∧
      ((receiving [] 98 0 up).feed .a).rx .l0 = .receiving (header 0 1 0 0) [] 98 0 ∧
      0 < [(1 : Byte)].length ∧ (List.replicate 97 (1 : Byte)).length < 98) ∧
    (((receiving [] 98 1 up).feed .a).rx .l0 = .receiving (header 0 1 0 0) [] 98 1 ∧
      ((receiving [] 98 2 up).feed .a).rx .l0 = .receiving (header 0 1 0 0) [] 98 2) := by
  refine ⟨⟨?_, ?_, ?_, ?_, ?_, ?_, _, rfl⟩, ?_⟩ <;> decide +kernel

/-- The header of a one-channel block with END, of stamp 2048. -/
def header2048 : LaneHeader := header 0 1 1 2048

/-- The check register of the block of zeros under `header2048`, taken in pieces. -/
theorem check_of_zeros : crcOf (headerBytes header2048 ++ List.replicate 96 0) = 14106 := by
  have h : List.replicate 96 (0 : Byte) =
      List.replicate 24 0 ++ (List.replicate 24 0 ++ (List.replicate 24 0 ++ List.replicate 24 0)) := by decide +kernel
  have h0 : (headerBytes header2048).foldl crcByte 0xFFFF = 20528 := by decide +kernel
  have h1 : (List.replicate 24 0).foldl crcByte 20528 = 420 := by decide +kernel
  have h2 : (List.replicate 24 0).foldl crcByte 420 = 16499 := by decide +kernel
  have h3 : (List.replicate 24 0).foldl crcByte 16499 = 12082 := by decide +kernel
  have h4 : (List.replicate 24 0).foldl crcByte 12082 = 14106 := by decide +kernel
  rw [h, crcOf]
  simp only [List.foldl_append, h0, h1, h2, h3, h4]

/-- A body of zeros with its check word, 14106 or 371Ah. -/
def bodyRight : List Byte := List.replicate 96 0 ++ [0x37, 0x1A]

/-- R188: the body's check word is right, and one of zeros is wrong. -/
theorem checks : checkRight header2048 bodyRight = true ∧ checkRight header2048 (List.replicate 98 0) = false := by
  have h1 : bodyRight.take (96 * header2048.count.toNat) = List.replicate 96 0 := by decide +kernel
  have h2 : (List.replicate 98 (0 : Byte)).take (96 * header2048.count.toNat) = List.replicate 96 0 := by decide +kernel
  constructor
  · rw [checkRight, h1, check_of_zeros]
    decide +kernel
  · rw [checkRight, h2, check_of_zeros]
    decide +kernel

/-- Feed A, one lane, one channel, RUNNING, with head `h` and position `i`, receiving the block of `header2048`. -/
def intake (h i : Nat) : State :=
  up.onFeed .a fun f =>
    { lead f with
      setup := { f.setup with n := 1 }, h := h, rs := { f.rs with i := i }, rx0 := .receiving header2048 [] 98 0 }

/-- The premises that every clause of LaneBlockDiscarded shares. -/
abbrev ArrivesIn (s : State) : Prop :=
  s.resetLine = false ∧ (s.feed .a).rx .l0 = .receiving header2048 [] bodyRight.length 0 ∧
    0 < bodyRight.length ∧ s.sel.over = false

/-- The state of `intake` with feed A changed. -/
def intakeWith (h i : Nat) (g : Feed → Feed) : State := (intake h i).onFeed .a g

/-- The block of `intake` on a paced feed that asked for it, with no room for it. -/
def pacedIntake (m : FeedMode) (isOpen : Bool) : State :=
  intakeWith 0 0 fun f =>
    { f with
      setup := { f.setup with mode := m }
      pace := { f.pace with line := true, isOpen := isOpen, begun := { l0 := true, l1 := false } } }

/-- A block of an odd stamp. -/
def odd : State := intakeWith 0 0 fun f => { f with rx0 := .receiving (header 0 1 0 33) [] 98 0 }

/-- The block on the second of two lanes, whose number it does not carry. -/
def crossed : State :=
  intakeWith 0 0 fun f => { f with setup := { f.setup with n := 2, lanes := 2 }, rx1 := .receiving header2048 [] 98 0 }

theorem witness_LaneBlockDiscarded :
    (ArrivesIn (intakeWith 0 0 fun f => { f with st := .idle }) ∧ ArrivesIn { intake 0 0 with clock := State.reset.clock } ∧
      ArrivesIn { intake 0 0 with pagesA := 1 } ∧ { intake 0 0 with pagesA := 1 }.pages .a * 1024 < 2 ^ 11 * 1) ∧
    ((odd.feed .a).rx .l0 = .receiving (header 0 1 0 33) [] bodyRight.length 0 ∧ odd.sel.over = false ∧
      (header 0 1 0 33).stamp.toNat % 32 ≠ 0) ∧
    (ArrivesIn (intakeWith 0 0 fun f => { f with last0 := some 2048 }) ∧ ArrivesIn (intakeWith 4096 0 fun f => { f with s0 := 2049 }) ∧
      ArrivesIn (intake 4096 2088) ∧ header2048.stamp.toNat + 39 < 2088 ∧
      ArrivesIn (intakeWith 0 0 fun f => { f with sourceEnd := some 2047 })) ∧
    ((crossed.feed .a).rx .l1 = .receiving header2048 [] bodyRight.length 0 ∧ (crossed.feed .a).setup.lanes = 2 ∧
      header2048.laneNo.toNat ≠ Lane.l1.code) ∧
    (ArrivesIn (intake 0 0) ∧ (intake 0 0).feedA.inPlay = true ∧ (intake 0 0).clock.phase = .running ∧
      1 * 2 ^ 11 ≤ (intake 0 0).pages .a * 1024 ∧ header2048.stamp.toNat % 32 = 0 ∧ header2048.laneNo.toNat = Lane.l0.code ∧
      header2048.count.toNat = (intake 0 0).feedA.setup.laneCount .l0 ∧ (intake 0 0).feedA.last0 = none ∧
      (intake 0 0).feedA.sourceEnd = none ∧ (intake 0 0).feedA.rs.i + 2 ^ 11 ≤ header2048.stamp.toNat) ∧
    (∀ m ∈ [FeedMode.single, .burst], ∀ b ∈ [false, true], ArrivesIn (pacedIntake m b) ∧
      (pacedIntake m b).feedA.setup.mode = m ∧ (pacedIntake m b).feedA.pace.begun.get .l0 = true ∧
      (pacedIntake m b).feedA.pace.isOpen = b ∧ (pacedIntake m b).feedA.pace.line = true ∧
      (pacedIntake m b).feedA.inPlay = true ∧ (pacedIntake m b).feedA.rs.i + 2 ^ 11 ≤ header2048.stamp.toNat) ∧
    checkRight header2048 bodyRight = true ∧ checkRight header2048 (List.replicate 98 0) = false ∧
    (List.replicate 98 (0 : Byte)).length = bodyRight.length := by
  refine ⟨?_, ?_, ?_, ?_, ?_, ?_, checks.1, checks.2, rfl⟩ <;> decide +kernel

/-- The stamps of a ring of 64 slots, slot by slot. -/
abbrev StampsOk (f : Feed) : Prop :=
  ∀ k < 64, ∀ v ∈ f.ring[k]?, ∀ t ∈ v.stamp, t % 32 = 0 ∧ t < f.h ∧ t / 32 % (2 ^ f.setup.dExp / 32) = k

/-- A ring whose stamps are checked slot by slot. -/
theorem ring_ok {f : Feed} (hb : f.setup.boundsOk = true) (hl : f.ring.length = 64 ∧ 2 ^ f.setup.dExp / 32 = 64)
    (hh : f.h % 32 = 0 ∧ f.h ≤ 2 ^ 40) (hs : StampsOk f) : f.RingOk := by
  refine ⟨hb, hl.1.trans hl.2.symm, hh.1, hh.2, fun k v t hk hv => ?_⟩
  obtain ⟨hk', -⟩ := List.getElem?_eq_some_iff.mp hk
  exact hs k (by omega) v hk t hv

/-- Feed A with two lanes of one channel each, the block of `header2048` on lane 0, and a ring. -/
def halves (h : Nat) (ring : List Slot → List Slot) : State :=
  intakeWith h 1 fun f => { f with setup := { f.setup with n := 2, lanes := 2 }, ring := ring f.ring }

/-- The premises that the clause of halves shares. -/
abbrev HalfIn (s : State) : Prop :=
  s.MemOk ∧ s.clock.phase = .running ∧ ArrivesIn s ∧ s.feedA.setup.lanes = 2 ∧ (1, 0) = ((s.feedA.setup.n + 1) / 2, 0) ∧
    bodyRight.length = 96 * 1 + 2 ∧ s.feedA.inPlay = true ∧ s.feedA.setup.n * 2 ^ s.feedA.setup.dExp ≤ s.pages .a * 1024 ∧
    header2048.laneNo.toNat = Lane.l0.code ∧ header2048.count.toNat = 1 ∧ s.feedA.last0 = none ∧ s.feedA.s0 ≤ 2048 ∧
    s.feedA.rs.i ≤ 2048 + 39 ∧ s.feedA.sourceEnd = none ∧ 2048 < s.feedA.rs.i + 2 ^ s.feedA.setup.dExp

/-- Slot 0 waiting for lane 0's half of block 2048, and slot 61 two blocks behind. -/
def lagging (v : SlotState) (ring : List Slot) : List Slot :=
  (ring.set 0 { stamp := some 2048, state := v, got := { l0 := false, l1 := true } }).set 61
    { stamp := some 1952, state := .filling, got := { l0 := true, l1 := false } }

/-- One slot that lane 0 alone has filled. -/
def behind (k : Nat) (ring : List Slot) : List Slot :=
  ring.set k { stamp := some (32 * k), state := .filling, got := { l0 := true, l1 := false } }

/-- The second half of a pair that a paced request waits for, with END marked at frame 2079 and a fill of 1023. -/
def paired (m : FeedMode) (isOpen : Bool) : State :=
  (halves 2080 (lagging .filling)).onFeed .a fun f =>
    { f with
      setup := { f.setup with mode := m }, sourceEnd := some 2080, rs := { f.rs with i := 1057 }
      pace := { f.pace with line := true, isOpen := isOpen, begun := ⟨true, true⟩, ended := ⟨false, true⟩ } }

/-- A repositioned feed of `paired`, its fill above the target already. -/
def moved : State := (paired .burst true).onFeed .a fun f => { f with rs := { f.rs with i := 1000 } }

/-- R28: a second half, which leaves the fill as it was, leaves the line asserted; a block that raises it to the target
negates the line. -/
theorem test_burstPlacement :
    (placed .a .l0 2048 true false [] moved).feedA.pace.line = true ∧
    (placed .a .l0 2080 true false [] moved).feedA.pace.line = false ∧
    (placed .a .l0 2080 true false [] (paired .burst true)).feedA.pace.line = false := by
  decide +kernel

theorem halves_rings : (halves 2048 id).feedA.RingOk ∧ (halves 2080 (lagging .filling)).feedA.RingOk ∧
    (halves 2080 (lagging .missing)).feedA.RingOk ∧ (halves 2016 (behind 61)).feedA.RingOk := by
  refine ⟨ring_ok ?_ ?_ ?_ ?_, ring_ok ?_ ?_ ?_ ?_, ring_ok ?_ ?_ ?_ ?_, ring_ok ?_ ?_ ?_ ?_⟩ <;> decide +kernel

theorem witness_LaneBlockPlaced :
    (Memory.wf (intake 2016 1).mem = true ∧ (intake 2016 1).clock.phase = .running ∧ ArrivesIn (intake 2016 1) ∧
      bodyRight.length = 96 * (intake 2016 1).feedA.setup.n + 2 ∧ (intake 2016 1).feedA.setup.lanes = 1 ∧
      9 ≤ (intake 2016 1).feedA.setup.dExp ∧
      (intake 2016 1).feedA.ring.length = 2 ^ (intake 2016 1).feedA.setup.dExp / 32 ∧ (intake 2016 1).feedA.h % 32 = 0 ∧
      (intake 2016 1).feedA.inPlay = true ∧ 1 * 2 ^ 11 ≤ (intake 2016 1).pages .a * 1024) ∧
    (header2048.laneNo = 0 ∧ (intake 2016 1).feedA.last0 = none ∧ (intake 2016 1).feedA.sourceEnd = none ∧
      (intake 2016 1).feedA.s0 ≤ 2048 ∧ (intake 2016 1).feedA.h + 32 * 0 < 2048 ∧
      2048 < (intake 2016 1).feedA.h + 32 * 0 + 2 ^ 11 ∧ 2048 < (intake 2016 1).feedA.rs.i + 2 ^ 11 ∧
      ((intake 2016 1).feedA.slotAt 2048).stamp = none ∧ (intake 2016 1).feedA.intakeEnded = false) ∧
    ((intakeWith 2016 1 fun f => { f with count := 2000 }).feedA.intakeEnded = true ∧
      (∀ m ∈ [FeedMode.single, .burst],
        ((intakeWith 2016 1 fun f => { f with setup := { f.setup with mode := m } }).feed .a).rx .l0 =
          .receiving header2048 [] bodyRight.length 0) ∧
      2048 + 32 - (intakeWith 2016 1100 id).feedA.rs.i < 2 ^ 11 / 2) ∧
    (ArrivesIn (intake 2048 1) ∧ (intake 2048 1).feedA.h = header2048.stamp.toNat ∧ (intake 2048 1).feedA.inPlay = true) ∧
    (HalfIn (halves 2048 id) ∧ (halves 2048 id).feedA.h = 2048 ∧ ((halves 2048 id).feedA.slotAt 2048).stamp = none) ∧
    (∀ v ∈ [SlotState.filling, .missing], HalfIn (halves 2080 (lagging v)) ∧ 2048 < (halves 2080 (lagging v)).feedA.h ∧
      ((halves 2080 (lagging v)).feedA.slotAt 2048).stamp = some 2048 ∧
      ((halves 2080 (lagging v)).feedA.slotAt 2048).got.get .l0 = false) ∧
    (HalfIn (halves 2016 (behind 61)) ∧ (halves 2016 (behind 61)).feedA.h < 2048 ∧
      2048 < (halves 2016 (behind 61)).feedA.h + 32 * 0 + 2 ^ 11 ∧
      ((halves 2016 (behind 61)).feedA.slotAt 2048).stamp = none ∧
      (halves 2016 (behind 61)).feedA.ring[61]? = some ⟨some 1952, .filling, ⟨true, false⟩⟩ ∧ 1952 + 64 ≤ 2048) ∧
    (∀ m ∈ [FeedMode.single, .burst], ∀ b ∈ [false, true], (paired m b).feedA.setup.mode = m ∧
      (paired m b).feedA.intakeEnded = false ∧ (paired m b).feedA.pace.isOpen = b ∧
      (paired m b).feedA.pace.begun.get .l0 = true ∧ (paired m b).feedA.pace.ended.add .l0 = ⟨true, true⟩ ∧
      (paired m b).feedA.rs.i ≤ 2048 + 39 ∧ max 2080 (2048 + 32) - (paired m b).feedA.rs.i < 2 ^ 11 / 2) ∧
    (moved.feedA.rs.i ≤ 2048 + 39 ∧ moved.feedA.setup.mode = .burst ∧ 2048 < moved.feedA.h ∧
      (moved.feedA.slotAt 2048).stamp = some 2048 ∧ 2 ^ 11 / 2 ≤ moved.feedA.h - moved.feedA.rs.i) ∧
    (checkRight header2048 bodyRight = true ∧ checkRight header2048 (List.replicate 98 0) = false) := by
  refine ⟨?_, ?_, ?_, ?_, ?_, ?_, ?_, ?_, ?_, checks⟩ <;> decide +kernel

/-- A feed of `asking` with a fill and its pace state changed. -/
def pacing (mode : FeedMode) (fill : Nat) (g : Pace → Pace) : Feed :=
  let f := (asking mode 5 false).feedA
  { f with h := fill, pace := g f.pace }

/-- The premises that every clause of an active pace state shares. -/
abbrev Paces (f : Feed) (m : FeedMode) : Prop := f.setup.mode = m ∧ f.inPlay = true ∧ f.intakeEnded = false

/-- Every used lane has begun. -/
abbrev Begun (f : Feed) : Prop := f.pace.begun.l0 = true ∧ (f.setup.lanes = 2 → f.pace.begun.l1 = true)

theorem witness_PaceLine :
    (up.feedA.setup.mode = .streaming ∧ up.feedA.inPlay = false) ∧
    (Paces (pacing .single 0 id) .single ∧ (pacing .single 0 id).pace.isOpen = true ∧ ¬ Begun (pacing .single 0 id) ∧
      Begun (pacing .single 0 fun p => { p with begun := ⟨true, false⟩ })) ∧
    (992 + 32 ≤ 2 ^ 11 / 2 ∧ 2 ^ 11 / 2 < 993 + 32 ∧ ∀ v ∈ [992, 993],
      Paces (pacing .single v fun p => { p with isOpen := false }) .single ∧
      (pacing .single v fun p => { p with isOpen := false }).pace.isOpen = false ∧
      (pacing .single v id).h - (pacing .single v id).rs.i = v) ∧
    (Paces (pacing .burst 1023 id) .burst ∧ (pacing .burst 1023 id).h - (pacing .burst 1023 id).rs.i < 2 ^ 11 / 2 ∧
      2 ^ 11 / 2 ≤ (pacing .burst 1024 id).h - (pacing .burst 1024 id).rs.i ∧
      (pacing .burst 1023 fun p => { p with reassert := true }).pace.reassert = true ∧
      (pacing .burst 1023 fun p => { p with line := false }).pace.line = false ∧
      (pacing .burst 1023 id).pace.reassert = false ∧ (pacing .burst 1023 id).pace.line = true ∧
      (pacing .burst 1023 id).pace.isOpen = true ∧ ¬ Begun (pacing .burst 1023 id) ∧
      (pacing .burst 1023 fun p => { p with isOpen := false }).pace.isOpen = false) ∧
    (up.resetLine = false ∧ up.clock.phase = .running ∧ (houseSample quietReads up).feedA.st = up.feedA.st ∧
      (houseSample quietReads (solo.onFeed .a fun f => { f with count := 1, rs := { f.rs with i := 1 } })).feedA.st ≠
        solo.feedA.st) ∧
    ((asking .single 127 false).feedA.pace.window < 128 ∧ (asking .burst 127 false).feedA.pace.window < 128) ∧
    ((asking .single 128 false).resetLine = false ∧ (asking .single 128 false).feedA.pace.isOpen = true ∧
      128 ≤ (asking .single 128 false).feedA.pace.window ∧ (asking .single 128 false).feedA.pace.begun.l0 = false ∧
      (asking .single 128 false).feedA.setup.mode = .single ∧ (asking .single 128 false).feedA.pace.try2 = false) ∧
    ((asking .single 128 true).feedA.pace.try2 = true ∧ (asking .single 128 true).feedA.pace.isOpen = true) ∧
    ((asking .burst 128 false).feedA.setup.mode = .burst ∧ (asking .burst 128 false).feedA.pace.isOpen = true ∧
      (asking .burst 128 false).feedA.pace.begun.l0 = false) ∧
    (asking .burst 128 true).feedA.pace.try2 = true := by decide +kernel

/-- A on air with a watch period that is due to close, given its counts, its mark and its opening position. -/
def closing (bad good : Nat) (absent mark : Bool) (iOpen : Nat) : State :=
  solo.onFeed .a fun f =>
    { f with
      watch := { f.watch with
        armed := true, absent := absent, blocks := 8, bad := bad, good := good, iOpen := iOpen
        marks := { l0 := mark, l1 := false } } }

/-- The premises that every judged close of WatchClose shares. -/
abbrev ClosesIn (s : State) : Prop :=
  s.resetLine = false ∧ s.sel.over = false ∧ s.feedA.watch.armed = true ∧ s.feedA.inPlay = true ∧
    s.feedA.intakeEnded = false ∧ 2 ^ s.feedA.setup.wExp ≤ s.feedA.watch.blocks

/-- The judgement "bad" of WatchClose. -/
abbrev ClosesBad (f : Feed) : Prop :=
  f.watch.paceBad = true ∨ ((f.st = .seeking ∨ f.rs.i ≠ f.watch.iOpen) ∧
    (f.watch.marks.l0 = false ∨ f.setup.lanes = 2 ∧ f.watch.marks.l1 = false))

theorem witness_WatchClose :
    (up.resetLine = false ∧ up.sel.over = false ∧ up.feedA.watch.armed = false) ∧
    (ClosesIn (closing 0 0 false false 0) ∧ (closing 0 0 false false 0).feedA.watch.paceBad = false ∧
      (closing 0 0 false false 0).feedA.st ≠ .seeking ∧
      (closing 0 0 false false 0).feedA.rs.i = (closing 0 0 false false 0).feedA.watch.iOpen) ∧
    (ClosesIn (closing 0 0 false false 1) ∧ ClosesBad (closing 0 0 false false 1).feedA ∧
      (closing 0 0 false false 1).feedA.watch.bad = 0) ∧
    (ClosesIn (closing 1 0 false false 1) ∧ ClosesBad (closing 1 0 false false 1).feedA ∧
      (closing 1 0 false false 1).feedA.watch.bad = 1 ∧ (closing 1 0 false false 1).feedA.watch.absent = false) ∧
    (ClosesIn (closing 0 0 false true 1) ∧ ¬ ClosesBad (closing 0 0 false true 1).feedA ∧
      (closing 0 0 false true 1).feedA.rs.i ≠ (closing 0 0 false true 1).feedA.watch.iOpen ∧
      (closing 0 0 false true 1).feedA.watch.good = 0) ∧
    (ClosesIn (closing 0 1 true true 1) ∧ ¬ ClosesBad (closing 0 1 true true 1).feedA ∧
      (closing 0 1 true true 1).feedA.watch.good = 1 ∧ (closing 0 1 true true 1).feedA.watch.absent = true) := by
  and_intros <;> decide +kernel

/-- The rise of A with its count. -/
def rising (n : Nat) : State := (at_ (.rise .a) (up.onFeed .a lead)).onSel fun v => { v with n := n }

theorem witness_Failover :
    ((up.onFeed .a fun f => { f with st := .seeking }).feedA.st = .seeking ∧ (air.feed .b).st = .running ∧
      (air.feed .b).role = .standby) ∧
    (up.feed .a).st = .idle ∧
    ((air.feed .a).st = .running ∧ (air.feed .a).role = .leader ∧ air.sel.state = .onair .a ∧
      (air.feed .b).isStandby = true ∧ air.sel.aligned = true) ∧
    ((air.onSel fun v => { v with aligned := false }).sel.aligned = false ∧ (solo.feed .b).isStandby = false ∧
      (solo.feed .a).role = .leader ∧ solo.sel.state = .onair .a) ∧
    ((cross.feed .b).st = .running ∧ (cross.feed .b).role = .leader ∧ cross.sel.state = .xfade Side.b.other) ∧
    ((cross.feed .a).st = .running ∧ (cross.feed .a).role = .outgoing ∧ cross.sel.state = .xfade .a) ∧
    (((rising 1).feed .a).st = .running ∧ ((rising 1).feed .a).role = .leader ∧ (rising 1).sel.state = .rise .a ∧
      0 < (rising 1).sel.n) ∧
    ((rising 0).sel.n = 0 ∧ (rising 0).resetLine = false ∧ (rising 0).notices.routing.getD 3 none = some .system) := by
  decide +kernel

/-- A setup with a channel count and exponents. -/
def setupWith (n dExp wExp : Nat) : Setup :=
  { mode := .streaming, rate := .k48, speed := .one, n := n, lanes := 1, dExp := dExp, wExp := wExp }

theorem witness_Feedset :
    (up.Serves 0x34 .feedA ∧ MayCommand .feedA .a ∧ MayCommand .system .b ∧ (setupWith 255 255 255).n < 256) ∧
    (solo.Serves 0x34 .feedA ∧ ((caughtUp solo).feed .a).inPlay = true) ∧
    (((caughtUp up).feed .a).inPlay = false ∧ ¬ (setupWith 49 9 2).n ≤ 48 * (setupWith 49 9 2).lanes) ∧
    ({ up with clock := { up.clock with rateClass := .k96 } }.Serves 0x34 .feedA ∧
      2 ^ (setupAt .k48 .pullDown 2).wExp * (setupAt .k48 .pullDown 2).nominal .k96 < 2 * 268435456) ∧
    (2 * 268435456 ≤ 2 ^ (setupWith 1 9 2).wExp * (setupWith 1 9 2).nominal .k48 ∧
      2 ^ (setupWith 1 9 2).dExp / 2 < 2 * 2 ^ (setupWith 1 9 2).wExp * 32 * 1 + 64 ∧
      (setupWith 1 9 2).nominal .k48 ≤ 268435456) ∧
    (2 * 2 ^ (setupWith 48 13 5).wExp * 32 * 1 + 64 ≤ 2 ^ (setupWith 48 13 5).dExp / 2 ∧
      up.pages .a * 1024 < 2 ^ (setupWith 48 13 5).dExp * (setupWith 48 13 5).n) ∧
    (2 * 2 ^ (setupWith 48 12 2).wExp * 32 * 1 + 64 ≤ 2 ^ (setupWith 48 12 2).dExp / 2 ∧
      2 ^ (setupWith 48 12 2).dExp * (setupWith 48 12 2).n ≤ up.pages .a * 1024) ∧
    (2 < (3 : Byte).toNat ∧ 1 < (2 : Byte).toNat ∧ 4 < (5 : Byte).toNat) ∧
    (268435456 * 1 * 24 / (2 * 25) = 128849018 ∧ 268435456 * 2 * 25 / (1 * 24) = 559240533) := by decide +kernel

/-- Feed A COMPLETE with a PLAY pending. -/
def pendingAt (pos : Nat) : State :=
  up.onFeed .a fun f => { isDone f with pendingPlay := some { pos := pos, count := 0 } }

theorem witness_Play :
    (up.Serves 0x34 .feedA ∧ MayCommand .feedA .a ∧ (1099511627775 : Nat) < 2 ^ 40 ∧
      2 ^ 40 - 1 < 1099511627775 + 1 ∧ 1099511627774 + 1 ≤ 2 ^ 40 - 1) ∧
    (solo.Serves 0x34 .feedA ∧ ((caughtUp solo).feed .a).inPlay = true) ∧
    ((pendingAt 0).Serves 0x34 .feedA ∧ ((caughtUp (pendingAt 0)).feed .a).st = .complete ∧
      ((caughtUp (pendingAt 0)).feed .a).pendingPlay ≠ none) ∧
    ({ up with pagesA := 31 }.Serves 0x34 .feedA ∧ ((caughtUp { up with pagesA := 31 }).feed .a).st = .idle ∧
      { up with pagesA := 31 }.pages .a * 1024 < 2 ^ 11 * 16) ∧
    ((up.onFeed .a isDone).Serves 0x34 .feedA ∧ ((caughtUp (up.onFeed .a isDone)).feed .a).pendingPlay = none ∧
      ((caughtUp (up.onFeed .a isDone)).feed .a).st = .complete) ∧
    (2 ^ ((caughtUp up).feed .a).setup.dExp * ((caughtUp up).feed .a).setup.n ≤ up.pages .a * 1024 ∧
      ((caughtUp up).feed .a).st = .idle) := by decide +kernel

/-- The relations of feeds and selector hold with A on air and B its aligned standby. -/
theorem air_program : air.ProgramOk := by
  refine ⟨both (by decide +kernel) (by decide +kernel), ?_, ⟨fun _ => ⟨.b, by decide +kernel⟩,
    none_meets (by decide +kernel) _, fun h => absurd h (by decide +kernel), by decide +kernel⟩,
    both (by decide +kernel) (by decide +kernel), fun x h => ?_⟩
  · show (air.feed .a).st = .running ∧ (air.feed .a).role = .leader ∧
      ((air.feed .b).isRead = true → (air.feed .b).isStandby = true)
    decide +kernel
  · exact absurd h (by cases x <;> decide +kernel)

theorem witness_StopAtOnce :
    (air.Serves 0x35 .feedB ∧ MayCommand .feedB .b ∧ caughtUp air = air ∧ (1 : Byte).toNat ≤ 1 ∧
      (air.feed .b).st = .running ∧ (air.feed .b).role = .standby) ∧ air.ProgramOk := by
  exact ⟨by decide +kernel, air_program⟩

theorem witness_Stop :
    (up.Serves 0x34 .feedA ∧ MayCommand .feedA .a ∧ 1 < (2 : Byte).toNat ∧ (1 : Byte).toNat ≤ 1 ∧
      ((caughtUp up).feed .a).st = .idle) ∧
    ((pendingAt 0).Serves 0x34 .feedA ∧ ((caughtUp (pendingAt 0)).feed .a).st = .complete ∧
      ((caughtUp (pendingAt 0)).feed .a).pendingPlay ≠ none) ∧
    (air.Serves 0x34 .feedA ∧ ((caughtUp air).feed .a).st = .running ∧ ((caughtUp air).feed .a).role = .leader) ∧
    (cross.Serves 0x34 .feedA ∧ ((caughtUp cross).feed .a).role = .outgoing) := by decide +kernel

/-- The role of a feed's controller. -/
def controller : Side → Role
  | .a => .feedA
  | .b => .feedB

/-- A state whose selector holds one STOP that is due, of the controller of feed `x`. -/
def stopping (x : Side) (handover : Bool) (s : State) : State :=
  doing (controller x) 0x12 (s.onSel fun v => { v with awaiting := [⟨.stop (controller x) x handover, true⟩] })

/-- The premises that every clause of StopOnAir shares. -/
abbrev StopDue (s : State) (x : Side) (handover : Bool) : Prop :=
  s.resetLine = false ∧ s.sel.over = false ∧ s.sel.awaiting = { order := .stop (controller x) x handover, due := true } :: [] ∧
    s.bus.slots.get (controller x) = .executing 0x12

/-- A RUNNING feed's STOP is due. -/
abbrev RunDue (s : State) (x : Side) (handover : Bool) : Prop := StopDue s x handover ∧ (s.feed x).st = .running

theorem witness_StopOnAir :
    (RunDue (stopping .a true air) .a true ∧ ((stopping .a true air).feed .a).role = .leader ∧
      (stopping .a true air).sel.state = .onair .a ∧ ((stopping .a true air).feed .b).isStandby = true ∧
      (stopping .a true air).sel.aligned = true) ∧
    (RunDue (stopping .a true solo) .a true ∧ ((stopping .a true solo).feed .b).isStandby = false) ∧
    (∀ n ∈ [0, 1], RunDue (stopping .a false (rising n)) .a false ∧ (stopping .a false (rising n)).sel.state = .rise .a ∧
      ((stopping .a false (rising n)).feed .a).role = .leader ∧ (stopping .a false (rising n)).sel.n = n ∧
      (stopping .a false (rising n)).notices.routing.getD 3 none = some .system) ∧
    (RunDue (stopping .b false cross) .b false ∧ ((stopping .b false cross).feed .b).role = .leader ∧
      (stopping .b false cross).sel.state = .xfade Side.b.other) ∧
    (RunDue (stopping .a false cross) .a false ∧ ((stopping .a false cross).feed .a).role = .outgoing ∧
      (stopping .a false cross).sel.state = .xfade .a) ∧
    (StopDue (stopping .a false (up.onFeed .a isDone)) .a false ∧
      ((stopping .a false (up.onFeed .a isDone)).feed .a).st ≠ .running) ∧
    (RunDue (stopping .b false air) .b false ∧ ((stopping .b false air).feed .b).role = .standby) := by
  and_intros <;> decide +kernel

/-- It is not the turn of a role's STOP: none awaits, another command is before it, or its block event has not fallen. -/
theorem witness_StopOnAir_turn :
    (∀ x handover rest, up.sel.awaiting ≠ { order := .stop .feedA x handover, due := true } :: rest) ∧
    (∀ x handover rest, inOrder.sel.awaiting ≠ { order := .stop .feedA x handover, due := true } :: rest) ∧
    (∀ x handover rest, (after (exec (.stop 0x34 [0, 1]) air)).sel.awaiting ≠
      { order := .stop .feedA x handover, due := true } :: rest) := by
  refine ⟨fun x h rest e => ?_, fun x h rest e => ?_, fun x h rest e => ?_⟩
  · cases e
  · cases e
  · rw [test_stop_waits.1] at e
    cases e

theorem witness_Feedack :
    (up.Serves 0x34 .feedA ∧ MayCommand .feedA .a ∧ ((caughtUp up).feed .a).st ≠ .complete) ∧
    ((up.onFeed .a isDone).Serves 0x34 .feedA ∧ ((caughtUp (up.onFeed .a isDone)).feed .a).st = .complete ∧
      ((caughtUp (up.onFeed .a isDone)).feed .a).completion = some ⟨.count, 7⟩ ∧
      ((caughtUp (up.onFeed .a isDone)).feed .a).pendingPlay = none) ∧
    ((pendingAt 33).Serves 0x34 .feedA ∧ ((caughtUp (pendingAt 33)).feed .a).completion = some ⟨.count, 7⟩ ∧
      ((caughtUp (pendingAt 33)).feed .a).pendingPlay = some ⟨33, 0⟩) := by decide +kernel

/-- A resampler with an integrator, and the offset that a fill gives it. -/
abbrev Offset (rNom fill target : Nat) (acc offset : Int) : Prop :=
  offset = ((fill : Int) - target) * 64 + ((tracker rNom acc).servo fill target).acc / 16

theorem witness_Servo :
    (Offset 134217728 8192 4096 0 262400 ∧ ((134217728 / 512 : Nat) : Int) < 262400) ∧
    (Offset 268435456 8192 1 0 524735 ∧ ((268435456 / 512 : Nat) : Int) < 524735) ∧
    (Offset 268435456 1024 1024 0 0 ∧ -((268435456 / 512 : Nat) : Int) ≤ 0 ∧ (0 : Int) ≤ (268435456 / 512 : Nat)) ∧
    (Offset 134217728 0 4096 0 (-262400) ∧ (-262400 : Int) < -((134217728 / 512 : Nat) : Int)) ∧
    (-1048576 ≤ (1048575 : Int) + 0 ∧ (1048575 : Int) + 0 ≤ 1048575) ∧
    (1048575 < (1048575 : Int) + ((tracker 134217728 1048575).servo 1025 1024).servoErr ∧
      (-1048576 : Int) + ((tracker 134217728 (-1048576)).servo 1023 1024).servoErr < -1048576) ∧
    (air.sel.state = .onair .a ∧ (air.feed .a).isRead = true ∧ (air.feed .a).setup.mode = .streaming) ∧
    (at_ (.fade .a) air).sel.state = .fade .a ∧ up.sel.state = .silent ∧
    ((rising 1).sel.state = .rise .a ∧ (rising 1).sel.formed ≠ 0 ∧ ((rising 1).feed .a).isRead = true ∧
      (rising 0).sel.state = .rise .a ∧ (rising 0).sel.formed = 0) ∧
    (cross.sel.state = .xfade .a ∧ cross.sel.formed = 0 ∧ (cross.feed .a).isRead = true ∧ (cross.feed .b).isRead = true ∧
      (cross.onSel fun v => { v with n := 1 }).sel.state = .xfade Side.b.other ∧
      (cross.onSel fun v => { v with n := 1 }).sel.formed ≠ 0) ∧
    ((at_ (.onair .a) (asking .single 0 false)).sel.state = .onair .a ∧
      ((at_ (.onair .a) (asking .single 0 false)).feed .a).setup.mode ≠ .streaming) := by decide +kernel

theorem witness_ReadPositions :
    (({ tracker 268435456 0 with i := 1099511627775, phi := 1 } : Resampler).i < 2 ^ 40 ∧
      (tracker 268435456 0).held = false ∧ ({ tracker 268435456 0 with held := true } : Resampler).held = true ∧
      1099511627774 * 2 ^ 28 + 268435455 + 268435456 < 2 ^ 68 ∧ 2 ^ 68 ≤ 1099511627775 * 2 ^ 28 + 0 + 268435456) ∧
    (air.resetLine = false ∧ air.clock.phase = .running ∧ air.sel.state = .onair .a ∧ (air.feed .b).isRead = true ∧
      (solo.feed .b).isRead = false) ∧
    ((rising 0).sel.state = .rise .a ∧ (at_ (.fade .a) air).sel.state = .fade .a ∧
      (cross.onSel fun v => { v with n := 1 }).sel.state = .xfade Side.b.other ∧
      (cross.onSel fun v => { v with n := 1 }).sel.formed ≠ 0) ∧
    (up.sel.state = .silent ∧ ((up.onFeed .b stand).feed .b).isRead = true) ∧
    (cross.sel.state = .xfade .a ∧ cross.sel.formed = 0 ∧ (cross.feed Side.a.other).setup.mode = .streaming ∧
      ((cross.onFeed .b fun f => { f with setup := { f.setup with mode := .burst } }).feed Side.a.other).setup.mode ≠
        .streaming) := by decide +kernel

/-- A on air at base 2. -/
def doubled : State := air.onFeed .a fun f => { f with setup := { f.setup with rate := .k96 } }

theorem witness_SignalPath :
    ((65535 : Nat) < 65536 ∧ -8388608 ≤ (8388606 : Int) + 1 * 65535 / 65536 ∧ (8388606 : Int) + 1 * 65535 / 65536 ≤ 8388607) ∧
    ((fading false 256 0).n ≤ 2 ^ (fading false 256 0).kx ∧ (fading true 96 160).n0 < 2 ^ (fading true 96 160).kx ∧
      (fading true 96 160).n0 + (fading true 96 160).j ≤ 2 ^ (fading true 96 160).kx ∧
      (fading true 96 160).abandoned = true ∧ (fading false 256 0).abandoned = false ∧ (fading true 96 160).state = .xfade .a) ∧
    ((rising 256).sel.n ≤ 2 ^ (rising 256).sel.kx ∧ (rising 256).sel.state = .rise .a) ∧ up.sel.state = .silent ∧
    air.sel.state = .onair .a ∧ (at_ (.fade .a) air).sel.state = .fade .a ∧
    ((air.feed .a).isRead = true ∧ 15 < (air.feed .a).setup.n ∧ (air.feed .a).setup.rate = .k48 ∧
      ((air.feedValues quietReads .a)[15]?).isSome = true) ∧
    ((doubled.feed .a).isRead = true ∧ (doubled.feed .a).setup.rate = .k96 ∧ doubled.clock.rateClass = .k48 ∧
      ((doubled.feedValues quietReads .a)[15]?).isSome = true) ∧
    ((95 : Nat) < 96 ∧ cross.sel.state = .xfade Side.b.other) := by decide +kernel

/-- A and B read, with A's slot of frame 32 in a state and B's GOOD, and a count. -/
def reads (v : SlotState) (count : Nat) : State :=
  (air.onFeed .a fun f =>
    { f with h := 64, count := count, ring := f.ring.set 1 { stamp := some 32, state := v, got := noLanes } }).onFeed .b fun f =>
    { f with h := 64, ring := f.ring.set 1 { stamp := some 32, state := .good, got := noLanes } }

/-- Both accesses of a sample meet a passing fault. -/
def bothFail : List Access := [⟨.feed .a, 0, 1, false⟩, ⟨.feed .a, 0, 1, true⟩]

/-- The frame of the witness is present in a feed's ring. -/
abbrev Owns (f : Feed) : Prop := ((f.slotAt 32).stamp == some 32 && (f.slotAt 32).state == .good) = true

/-- A and B read two channels of frame 32, A's samples being 5 and B's 7, and A at frame 33. -/
def twoReads (patch : Bool) : State :=
  let s := (reads .good 0).onFeed .a fun f => { f with rs := { f.rs with i := 33 } }
  { s with
    sel := { s.sel with patch := patch }
    mem := (s.mem.write (s.ringAddr .a 1 32) 5).write (s.ringAddr .b 1 32) 7 }

/-- A's read of frame 32 for channel 0 fails; the one for channel 1 is late or not. -/
def spoiled (late : Bool) : SampleReads :=
  { passing := [⟨.feed .a, 0, 0, false⟩, ⟨.feed .a, 0, 0, true⟩], late := if late then [⟨.a, 1, 0⟩] else [] }

/-- R79: beside a failed read of the same slot for channel 0, the read for channel 1 finds the sample if it is taken
before the marking; taken after it, it is patched from B, or 0 with PATCH off. -/
theorem test_late_read :
    ([(true, false), (true, true), (false, true)].map fun v =>
      (((twoReads v.1).feedValues (spoiled v.2) .a).map Prod.fst)[1]?) =
      [some (cubic 5 0 0 0 0), some (cubic 7 0 0 0 0), some (cubic 0 0 0 0 0)] ∧
    ([false, true].map fun late =>
      ((twoReads true).ringRead (spoiled late).passing ((twoReads true).readsMade (spoiled late)) ⟨.a, 1, 0⟩ 32).1) =
      [5, 7] := by decide +kernel

/-- spec/03, Worked case: a parity failure during patching. Feed A's slot of frame 11,041 is DAMAGED, feed B's GOOD, and
B's word for channel 7 has bad parity. -/
def patchBad : State :=
  let s := (air.onFeed .a fun f =>
    { f with h := 11072 }.setSlot 11041 { stamp := some 11040, state := .damaged, got := noLanes }).onFeed .b fun f =>
      { f with h := 11072 }.setSlot 11041 { stamp := some 11040, state := .good, got := noLanes }
  { s with mem := [(s.ringAddr .b 7 11041, ⟨5, false⟩)] }

theorem test_patchBad :
    patchBad.readFrame [] .a 7 0 11041 = (0, [{ ring := .b, channel := 7, frame := 11041 }]) ∧
    patchBad.readFrame [] .a 6 0 11041 = (0, []) ∧
    ((markFail { ring := .b, channel := 7, frame := 11041 } patchBad).feedB.slotAt 11041).state = .damaged ∧
    ((markFail { ring := .b, channel := 7, frame := 11041 } patchBad).notices.queues.get .system).map
      (fun v => (v.kind, v.detail)) = [(.memfault, [1, 7, 1, 89])] := by decide +kernel

/-- The frame of the parity case is the other feed's to give. -/
theorem witness_FrameReads_patch :
    (patchBad.feedA.slotAt 11041).state = .damaged ∧ patchBad.sel.patch = true ∧ patchBad.feedA.role = .leader ∧
    patchBad.feedB.isRead = true ∧ patchBad.feedA.rs.rNom = patchBad.feedB.rs.rNom ∧
    patchBad.feedA.setup.n = patchBad.feedB.setup.n ∧ patchBad.feedA.startPos ≤ 11041 ∧ patchBad.feedA.count = 0 ∧
    patchBad.feedA.sourceEnd = none ∧ patchBad.feedB.startPos ≤ 11041 ∧ patchBad.feedB.count = 0 ∧
    patchBad.feedB.sourceEnd = none ∧ (patchBad.feedB.slotAt 11041).stamp = some (32 * (11041 / 32)) ∧
    (patchBad.feedB.slotAt 11041).state = .good ∧ (patchBad.mem.read (patchBad.ringAddr .b 7 11041)).good = false := by
  decide +kernel

/-- The lowest frame of the window that has not arrived: frame 0 at the start (frame -1 is outside the program), a frame of
a FILLING slot below the head, the first at the head, one of the window of base 2, and none. -/
theorem witness_FrameReads_missing :
    (air.missingFrame .a = some 0 ∧ (air.feedA.rs.i : Int) - 1 < air.feedA.startPos) ∧
    ((reads .filling 0).onFeed .a fun f => { f with rs := { f.rs with i := 33 } }).missingFrame .a = some 32 ∧
    ((reads .good 0).onFeed .a fun f => { f with rs := { f.rs with i := 62 } }).missingFrame .a = some 64 ∧
    (doubled.missingFrame .a = some 0 ∧ doubled.feedA.setup.rate = .k96 ∧ doubled.clock.rateClass = .k48) ∧
    (reads .good 0).missingFrame .a = none := by decide +kernel

theorem witness_FrameReads :
    ((twoReads true).Reads ⟨.a, 1, 0⟩ ∧ (⟨.a, 1, 0⟩ : RingRead) ∉ (spoiled false).late ∧
      (spoiled true).late = [] ++ ⟨.a, 1, 0⟩ :: [] ∧
      ((twoReads true).ringRead (spoiled true).passing ((twoReads true).readsMade (spoiled true)) ⟨.a, 0, 0⟩ 32).2 ≠ []) ∧
    ((-1 : Int) < (reads .good 0).feedA.startPos ∧
      ((reads .good 0).onFeed .a fun f => { f with startPos := 33 }).feedA.startPos = 33 ∧
      (0 < (reads .good 32).feedA.count ∧ (reads .good 32).feedA.startPos + (reads .good 32).feedA.count ≤ 32)) ∧
    ((reads .good 33).feedA.startPos ≤ 32 ∧ 32 < (reads .good 33).feedA.startPos + (reads .good 33).feedA.count ∧
      (reads .good 0).feedA.sourceEnd = none ∧ Owns (reads .good 0).feedA ∧
      ((reads .good 0).mem.read ((reads .good 0).ringAddr .a 0 32)).good = true ∧
      (⟨.feed .a, 0, 1, false⟩ : Access) ∉ [(⟨.feed .a, 0, 1, true⟩ : Access)] ∧
      (⟨.feed .a, 0, 1, false⟩ : Access) ∈ bothFail ∧ (⟨.feed .a, 0, 1, true⟩ : Access) ∈ bothFail) ∧
    (¬ Owns (reads .damaged 0).feedA ∧ (reads .damaged 0).sel.patch = true ∧ (reads .damaged 0).feedA.role = .leader ∧
      (reads .damaged 0).feedB.isRead = true ∧ (reads .damaged 0).feedA.rs.rNom = (reads .damaged 0).feedB.rs.rNom ∧
      (reads .damaged 0).feedA.setup.n = (reads .damaged 0).feedB.setup.n ∧
      (reads .damaged 0).feedB.classify 32 = .present ∧
      ((reads .damaged 0).mem.read ((reads .damaged 0).ringAddr .b 0 32)).good = true) ∧
    ((reads .damaged 0).onSel fun v => { v with patch := false }).sel.patch = false ∧
    ((reads .good 0).feed .a).slotAt 32 ≠ emptySlot ∧
    (air.sel.state.leader = some .a ∧ air.missingFrame .a = some 0 ∧ (air.feed .a).isRead = true ∧
      (air.feed .a).rs.underrun = false ∧ (air.feed .a).watch.absent = false) ∧
    ((air.onFeed .a fun f => { f with rs := { f.rs with underrun := true } }).missingFrame .a = some 0) := by decide +kernel

/-- The crossfade at its end with the outgoing feed lost. -/
def crossLost : State := ((at_ (.xfade .a) ((up.onFeed .a fun f => { fails f with role := .outgoing }).onFeed .b lead))).onSel
  fun v => { v with n := 256 }

/-- The abandoned crossfade at its end. -/
def crossLeft : State := (cross.onFeed .b fails).onSel fun v => { v with abandoned := true, n := 96, n0 := 96, j := 160 }

/-- A fade of A at its end, with B its standby and perhaps a cold flag. -/
def faded (cold : Option Side) : State :=
  (at_ (.fade .a) (air.onFeed .a fails)).onSel fun v => { v with n := 256, cold := cold, aligned := false }

/-- A feed whose count ends at frame 9, at a position. -/
def nine (i : Nat) (f : Feed) : Feed := { f with count := 10, rs := { f.rs with i := i } }

/-- R55, R89, R103: the outgoing feed past its own end completes with its own reason at a crossfade's end, and a
leader's own end in a fade gives its own ending reason, the standby its FEEDDONE last, and SILENCE the cause "end". -/
theorem test_endsPast :
    (after (exec .transitionEnd ((cross.onFeed .a (nine 10)).onSel fun v => { v with n := 256 }))).feedA.completion =
      some { reason := .count, final := 10 } ∧
    ((takeEnds ((faded none).onFeed .a (nine 10))).feedA.completion,
      ((takeEnds ((faded none).onFeed .a (nine 10))).notices.queues.get .system).map fun v => (v.kind, v.detail)) =
      (some { reason := .laneLost, final := 10 }, [(.silence, [0, 4, 0, 0]), (.feeddone, [1, 4, 0, 0])]) := by
  decide +kernel

/-- A rise at its last house sample and before it, a crossfade that runs, and an abandoned one at its end: the counts
that a transition's end is judged by. -/
theorem witness_TransitionEnd_over :
    ∀ s ∈ [rising 255, rising 256, cross, crossLeft], Selector.CountsOk s ∧ s.sel.state.inTransition = true := by
  intro s hs
  simp only [List.mem_cons, List.not_mem_nil, or_false] at hs
  obtain rfl | rfl | rfl | rfl := hs
  all_goals
    exact ⟨⟨fun h => absurd h (by decide +kernel), none_meets (by decide +kernel) _,
      fun h => by first | exact ⟨.a, by decide +kernel⟩ | exact absurd h (by decide +kernel), by decide +kernel⟩,
      by decide +kernel⟩

theorem test_over :
    ([rising 255, rising 256, cross, crossLeft, solo].map fun s => s.sel.over) = [false, true, false, true, false] := by
  decide +kernel

theorem witness_TransitionEnd :
    (up.resetLine = false ∧ (rising 255).sel.over = false) ∧
    ((rising 256).resetLine = false ∧ (rising 256).sel.over = true ∧ (rising 256).sel.state = .rise .a) ∧
    ((cross.onSel fun v => { v with n := 256 }).sel.over = true ∧ cross.sel.state = .xfade .a ∧ cross.sel.abandoned = false ∧
      (cross.feed .a).st = .running ∧ (cross.feed .a).atEnd = false) ∧
    (crossLost.sel.over = true ∧ crossLost.sel.state = .xfade .a ∧ crossLost.sel.abandoned = false ∧
      (crossLost.feed .a).st = .ending ∧ (crossLost.feed .a).ending = some .laneLost) ∧
    (crossLeft.sel.over = true ∧ crossLeft.sel.state = .xfade .a ∧ crossLeft.sel.abandoned = true ∧
      (crossLeft.feed .b).st = .ending ∧ (crossLeft.feed .b).ending = some .laneLost ∧ (crossLeft.feed .a).st = .running ∧
      (crossLeft.feed .a).lastNeeded = none) ∧
    (((crossLeft.onFeed .a fails).feed .a).st = .ending ∧
      ((crossLeft.onFeed .a fails).feed .a).ending = some .laneLost ∧ (crossLeft.onFeed .a fails).sel.over = true ∧ ((crossLeft.onFeed .a fails).feed .b).st = .ending) ∧
    (∀ s ∈ [cross.onSel fun v => { v with n := 256 }, crossLeft], (s.onFeed .a (nine 10)).sel.over = true ∧
      ((s.onFeed .a (nine 10)).feed .a).st = .running ∧ ((s.onFeed .a (nine 10)).feed .a).lastNeeded = some 9 ∧
      9 < ((s.onFeed .a (nine 10)).feed .a).rs.i) ∧
    ((faded none).sel.over = true ∧ (faded none).sel.state = .fade .a ∧ (faded none).sel.cold = none ∧
      ((faded none).feed .a).st = .ending ∧ ((faded none).feed .a).ending = some .laneLost) ∧
    ((faded (some .b)).sel.over = true ∧ (faded (some .b)).sel.state = .fade .a ∧
      (faded (some .b)).sel.cold = some Side.a.other ∧ ((faded (some .b)).feed .a).st = .ending ∧ ((faded (some .b)).feed .a).ending = some .laneLost) := by
  and_intros <;> decide +kernel

/-- A state with an ONAIR for a feed field that is due. -/
def taking (b : Byte) (s : State) : State :=
  doing .system 0x45 (s.onSel fun v => { v with awaiting := [⟨.onair b, true⟩] })

/-- The premises that the clauses of ONAIR_TAKE share. -/
abbrev OnairDue (s : State) (b : Byte) : Prop :=
  s.resetLine = false ∧ s.sel.over = false ∧ s.sel.awaiting = { order := .onair b, due := true } :: [] ∧
    s.bus.slots.get .system = .executing 0x45

/-- B the standby with no leader. -/
def alone : State := up.onFeed .b stand

theorem witness_OnAir :
    (up.Serves 0x37 .system ∧ up.sel.awaiting = []) ∧
    (OnairDue (taking 2 up) 2 ∧ 1 < (2 : Byte).toNat) ∧
    (OnairDue (taking 1 cross) 1 ∧ (taking 1 cross).sel.state.inTransition = true) ∧
    (OnairDue (taking 0 solo) 0 ∧ (0 : Byte).toNat = Side.a.code ∧ (taking 0 solo).sel.state = .onair .a) ∧
    (OnairDue (taking 1 air) 1 ∧ (1 : Byte).toNat = Side.b.code ∧ (taking 1 air).sel.state = .onair Side.b.other ∧
      ((taking 1 air).feed .b).isStandby = true ∧ (taking 1 air).sel.aligned = true) ∧
    (OnairDue (taking 1 solo) 1 ∧ ((taking 1 solo).feed .b).isStandby = false) ∧
    (OnairDue (taking 1 up) 1 ∧ (taking 1 up).sel.state = .silent ∧ ((taking 1 up).feed .b).isStandby = false) ∧
    (OnairDue (taking 1 alone) 1 ∧ ((taking 1 alone).feed .b).isStandby = true ∧ (taking 1 alone).sel.aligned = false) ∧
    (taking 1 (alone.onSel fun v => { v with aligned := true })).sel.aligned = true := by and_intros <;> decide +kernel

/-- A PRIMED, and B perhaps too. -/
def offering (both : Bool) (s : State) : State :=
  (s.onFeed .a fun f => { f with st := .primed }).onFeed .b fun f => if both then { f with st := .primed } else f

/-- B the standby in SILENT at position 4, with the three blocks of its window GOOD or not. -/
def windowed (good : Bool) : State :=
  (alone.onFeed .b fun f =>
    { f with
      ring := { stamp := some 0, state := .good, got := noLanes } :: { stamp := some 32, state := .good, got := noLanes } ::
        { stamp := some 64, state := if good then .good else .damaged, got := noLanes } :: f.ring.drop 3 }).onSel
    fun v => { v with pos := 4 }

theorem witness_StandbyJudged :
    ((offering false up).sel.state = .silent ∧ ((offering false up).feed .a).st = .primed ∧
      ((offering false up).feed Side.a.other).st ≠ .primed) ∧
    ((offering true up).sel.state = .silent ∧ ((offering true up).feed .b).st = .primed ∧
      ((offering true up).feed Side.b.other).st = .primed ∧ (offering true up).sel.preferred = Side.b.other) ∧
    (((at_ (.onair .b) (offering false up)).feed .a).st = .primed ∧
      (at_ (.onair .b) (offering false up)).sel.state = .onair Side.a.other) ∧
    (at_ (.fade .b) (offering false up)).sel.state = .fade .b ∧
    ((windowed true).standby = some .b ∧ (windowed true).sel.fresh = false ∧ 4 ≤ (windowed true).sel.pos ∧
      (windowed true).sel.state.leader = none) ∧
    (∀ b, (4 - 4) / 32 ≤ b → b ≤ (4 + 64) / 32 →
      (((windowed true).feed .b).slotAt (32 * b)).stamp = some (32 * b) ∧
      (((windowed true).feed .b).slotAt (32 * b)).state = .good) ∧
    (((windowed true).onSel fun v => { v with fresh := true }).sel.fresh = true ∧ up.standby = none ∧
      ((windowed true).onSel fun v => { v with pos := 3 }).standby = some .b ∧
      ¬ 4 ≤ ((windowed true).onSel fun v => { v with pos := 3 }).sel.pos) ∧
    ((windowed false).standby = some .b ∧ (((windowed false).feed .b).slotAt (32 * 2)).state ≠ .good) ∧
    ((rising 0).sel.state = .rise .a ∧ (rising 0).sel.n = 0 ∧
      (((rising 0).onFeed .b stand).feed Side.a.other).isStandby = true ∧
      ((rising 0).feed Side.a.other).isStandby = false ∧ (rising 1).sel.n ≠ 0) := by
  refine ⟨by decide +kernel, by decide +kernel, by decide +kernel, by decide +kernel, by decide +kernel, ?_, by decide +kernel,
    by decide +kernel, by decide +kernel⟩
  intro b _ hb
  have hb : b ≤ 2 := by omega
  interval_cases b <;> decide +kernel

theorem witness_ProgramEnds :
    ((solo.onFeed .a (nine 10)).sel.state.leader = some .a ∧ ((solo.onFeed .a (nine 10)).feed .a).lastNeeded = some 9 ∧
      9 < ((solo.onFeed .a (nine 10)).feed .a).rs.i ∧ ((solo.onFeed .a (nine 10)).feed .a).isRead = true ∧
      ((solo.onFeed .a (nine 10)).feed .a).st = .running ∧
      ((solo.onFeed .a (nine 10)).feed Side.a.other).isRead = false) ∧
    (((air.onFeed .a (nine 10)).feed Side.a.other).st = .running ∧ ((air.onFeed .a (nine 10)).feed .a).lastNeeded = some 9) ∧
    ((crossLost.onFeed .b (nine 10)).sel.state.leader = some .b ∧ ((crossLost.onFeed .b (nine 10)).feed .b).lastNeeded = some 9 ∧
      ((crossLost.onFeed .b (nine 10)).feed .b).isRead = true ∧
      ((crossLost.onFeed .b (nine 10)).feed Side.b.other).st = .ending ∧
      ((crossLost.onFeed .b (nine 10)).feed Side.b.other).ending = some .laneLost) ∧
    (((solo.onFeed .a (nine 9)).feed .a).lastNeeded = some 9 ∧ ((solo.onFeed .a (nine 9)).feed .a).rs.i ≤ 9 ∧
      ((solo.onFeed .a (nine 9)).feed Side.a.other).isStandby = false) ∧
    ([9, 10].map fun i => (((air.onFeed .a (nine 9)).onFeed .b (nine i)).feed Side.a.other).lastNeeded) = [some 9, some 9] ∧
    (((air.onFeed .a (nine 9)).onFeed .b (nine 10)).feed Side.a.other).isStandby = true ∧
    (((faded none).onFeed .a (nine 10)).sel.state.leader = some .a ∧
      (((faded none).onFeed .a (nine 10)).feed .a).st = .ending ∧
      (((faded none).onFeed .a (nine 10)).feed .a).ending = some .laneLost ∧
      (((faded none).onFeed .a (nine 10)).feed Side.a.other).st = .running) ∧
    ((((faded (some .b)).onFeed .b (nine 10)).feed .b).isStandby = true ∧ (faded (some .b)).sel.cold = some .b ∧
      (faded (some .b)).sel.state.leader = some .a ∧ ((faded (some .b)).feed .a).lastNeeded = none) ∧
    ((at_ .silent air).sel.state.leader = none ∧ ((at_ .silent (up.onFeed .b stand)).feed .a).isStandby = false) := by
  and_intros <;> decide +kernel

/-- No exponent is held by a bank that is not sealed. -/
theorem not_sealed {v : PendState} (h : v = .free ∨ v = .building) : ∀ kr, v ≠ .sealed kr := by
  rintro kr rfl
  simp at h

/-- A bank sealed, with its take or copy due, and the render processor's command in execution. -/
def sealedUp : State := { up with scene := sealedScene }
def takeDue (v : Scene) : State := doing .render 0x25 { up with scene := { v with take := .due } }
def copyDue : State := doing .render 0x20 { up with scene := { sealedScene with state := .building, copy := .due } }

theorem witness_SceneWaits :
    (up.Serves 0x36 .render ∧ 1 < (2 : Byte).toNat ∧ up.scene.state = .free ∧ building.Serves 0x36 .render ∧
      building.scene.state ≠ .free) ∧
    (copyDue.resetLine = false ∧ copyDue.scene.copy = .due ∧ copyDue.scene.state = .building ∧
      copyDue.bus.slots.get .render = .executing 0x20 ∧ up.scene.copy ≠ .due) ∧
    (sealedUp.Serves 0x36 .render ∧ sealedUp.scene.state = .sealed 2) ∧ (∀ kr, up.scene.state ≠ .sealed kr) ∧
    ((takeDue sceneReset).resetLine = false ∧ (takeDue sceneReset).scene.take = .due ∧
      (takeDue sceneReset).bus.slots.get .render = .executing 0x25 ∧ up.scene.take ≠ .due) ∧
    (∀ kr, (takeDue sceneReset).scene.state ≠ .sealed kr) := by
  refine ⟨?_, ?_, ?_, not_sealed (.inl rfl), ?_, not_sealed (.inl rfl)⟩ <;> decide +kernel

/-- A bank of the first keys in key order, being built in a 96 kHz house. -/
def filled (k : Nat) : State :=
  { up with
    clock := { up.clock with rateClass := .k96 }
    scene := { sceneReset with
      state := .building, pendingBank := (List.range k).map fun j => ⟨j % 96, j / 96, 0, 0⟩ } }

theorem filled_ok (k : Nat) (hk : k ≤ 768) : (filled k).PendingOk := by
  refine ⟨?_, ?_, fun h => absurd h (by simp [filled]), ?_, fun kr h => absurd h (by simp [filled])⟩
  · simp only [filled, List.pairwise_map, RouteEntry.key, keyOf]
    exact List.pairwise_lt_range.imp fun {a b} h => by omega
  · simp [filled, pendingLimit, routeCapacity]; omega
  · intro e he
    simp only [filled, List.mem_map, List.mem_range] at he
    obtain ⟨j, hj, rfl⟩ := he
    simp only [RouteFieldsOk]
    omega

theorem witness_RouteEdits :
    (up.Serves 0x36 .render ∧ up.scene.state ≠ .building ∧ (filled 768).Serves 0x36 .render ∧
      (filled 768).scene.state = .building) ∧ (filled 768).PendingOk ∧ (filled 767).PendingOk ∧ (filled 0).PendingOk ∧
    (∀ e ∈ [(⟨255, 255, -8388608, 255⟩ : RouteEntry), ⟨0, 0, 8388607, 0⟩], e.Fits) ∧
    ([(⟨95, 63, 0, 0⟩ : RouteEntry), ⟨96, 0, 0, 0⟩][1]? = some ⟨96, 0, 0, 0⟩ ∧
      (∀ d ∈ [(⟨95, 63, 0, 0⟩ : RouteEntry), ⟨96, 0, 0, 0⟩].take 1, d.input ≤ 95 ∧ d.output ≤ 63) ∧
      63 < (⟨0, 64, 0, 0⟩ : RouteEntry).output) ∧
    (1 = (([(⟨95, 63, 0, 0⟩ : RouteEntry)].map RouteEntry.key).dedup.filter fun k =>
        !((filled 768).scene.pendingBank.any fun e => e.key == k)).length ∧
      pendingLimit (filled 768).clock.rateClass < (filled 768).scene.pendingBank.length + 1 ∧
      (filled 767).scene.pendingBank.length + 1 ≤ pendingLimit (filled 767).clock.rateClass) ∧
    ((∀ k ∈ [(95, 63), (255, 64)], k.1 < 256 ∧ k.2 < 256) ∧ [(95, 63), (255, 64)][1]? = some (255, 64) ∧
      (∀ d ∈ [(95, 63), (255, 64)].take 1, d.1 ≤ 95 ∧ d.2 ≤ 63)) :=
  ⟨by decide +kernel, filled_ok 768 (by decide), filled_ok 767 (by decide), filled_ok 0 (by decide), by decide +kernel,
    by decide +kernel, by decide +kernel, by decide +kernel⟩

theorem witness_ScnSeal :
    (up.Serves 0x36 .render ∧ up.scene.state ≠ .building ∧ building.Serves 0x36 .render ∧ building.scene.state = .building) ∧
    (sealedUp.Serves 0x36 .render ∧ sealedUp.scene.state = .sealed 2 ∧ (List.replicate 240 (0 : Byte)).length % 6 = 0 ∧
      (List.replicate 240 (0 : Byte)).length ≤ 240 ∧ (List.replicate 250 (0 : Byte)).length % 2 = 0) ∧
    ({ sealedScene with pendingBank := [] }.pendingBank = [] ∧
      ({ sealedScene with pendingBank := [] }.taken .k48 2).active ≠ [] ∧
      (sealedScene.active.Pairwise fun d e => d.key < e.key) ∧ sealedScene.active.length ≤ routeCapacity .k48) := by
  decide +kernel

theorem witness_ScnDiscard :
    (up.Serves 0x36 .render ∧ up.scene.state = .free ∧ sealedUp.Serves 0x36 .render ∧ sealedUp.scene.state ≠ .free) ∧
    copyDue.bus.slots.get .render = .executing 0x20 ∧ roleAt copyDue.bus.strap 0x36 = some .render := by decide +kernel

/-- The banks of the worked take are in order. -/
theorem takeDue_banks : (takeDue sealedScene).BanksOk := by
  refine ⟨⟨by decide +kernel, by decide +kernel, by decide +kernel, by decide +kernel, ?_⟩, by decide +kernel⟩
  rintro kr h
  have h : PendState.sealed 2 = .sealed kr := h
  cases h
  decide

/-- An active bank of all 1,024 routes of a 96 kHz house, 256 of them releasing. -/
def fullBank : List ActiveRoute := (List.range 1024).map fun j => ⟨j % 64, j / 64, 0, 0, j, 0, 0, decide (768 ≤ j)⟩

theorem fullBank_key_order : fullBank.Pairwise fun d e => d.key < e.key := by
  simp only [fullBank, List.pairwise_map, ActiveRoute.key, keyOf]
  exact List.pairwise_lt_range.imp fun {a b} h => by omega

theorem fullBank_fields : ∀ e ∈ fullBank, RouteFieldsOk e.input e.output e.target e.k := by
  intro e he
  simp only [fullBank, List.mem_map, List.mem_range] at he
  obtain ⟨j, hj, rfl⟩ := he
  simp only [RouteFieldsOk]
  omega

/-- The take of one new route into a full bank of a 96 kHz house, due. -/
def crowded (bank : List ActiveRoute) : State :=
  let s := takeDue { sealedScene with active := bank, pendingBank := [⟨95, 63, 4194304, 0⟩] }
  { s with clock := { s.clock with rateClass := .k96 } }

theorem crowded_pending (bank : List ActiveRoute) : (crowded bank).PendingOk := by
  refine ⟨by simp [crowded, takeDue, doing], show 1 ≤ pendingLimit .k96 by decide,
    fun h => absurd h (by simp [crowded, takeDue, doing, sealedScene]), ?_, ?_⟩
  · intro e he
    have he : e ∈ [(⟨95, 63, 4194304, 0⟩ : RouteEntry)] := he
    rw [List.mem_singleton.mp he]
    decide
  · rintro kr h
    have h : PendState.sealed 2 = .sealed kr := h
    cases h
    decide

theorem crowded_ok {bank : List ActiveRoute} (h1 : bank.Pairwise fun d e => d.key < e.key)
    (h2 : bank.length ≤ routeCapacity .k96)
    (h3 : (bank.filter fun e => !e.releasing).length ≤ pendingLimit .k96)
    (h4 : ∀ e ∈ bank, RouteFieldsOk e.input e.output e.target e.k) : (crowded bank).BanksOk :=
  ⟨crowded_pending bank, h1, h2, h3, h4⟩

theorem crowded_banks : (crowded fullBank).BanksOk :=
  crowded_ok fullBank_key_order (by simp [fullBank, routeCapacity]) (by decide +kernel) fullBank_fields

theorem witness_Take :
    ((takeDue sealedScene).resetLine = false ∧ (takeDue sealedScene).scene.take = .due ∧
      (takeDue sealedScene).scene.state = .sealed 2 ∧ (takeDue sealedScene).bus.slots.get .render = .executing 0x25) ∧
    (takeDue sealedScene).BanksOk ∧
    ((crowded fullBank).resetLine = false ∧ (crowded fullBank).scene.take = .due ∧
      (crowded fullBank).scene.state = .sealed 2 ∧
      (crowded fullBank).bus.slots.get .render = .executing 0x25) ∧ (crowded fullBank).BanksOk ∧
    (routeCapacity (crowded fullBank).clock.rateClass - (crowded fullBank).scene.pendingBank.length <
      ((crowded fullBank).scene.active.filter fun e : ActiveRoute =>
        !((crowded fullBank).scene.pendingBank.any fun p : RouteEntry =>
          p.input == e.input && p.output == e.output)).length) :=
  ⟨by decide +kernel, takeDue_banks, by decide +kernel, crowded_banks, by decide +kernel⟩

theorem witness_Ramp :
    (∀ k ∈ [0, 11], ((⟨1, 9, 4194304, k⟩ : RouteEntry).entered 0).gain = 0 ∧
      ((⟨1, 9, 4194304, k⟩ : RouteEntry).entered 0).step = ((4194304 : Int) - 0).tdiv (2 ^ k) ∧
      ((⟨1, 9, 4194304, k⟩ : RouteEntry).entered 0).remaining = 2 ^ k) ∧ up.resetLine = false := by decide +kernel

/-- An output whose duck ends with its next mute step. -/
def ducking (m : Nat) : State := out0 (fun o => { o with m := m, pendingDelay := some 300 }) up

/-- Output 0 with a held sum that saturated and a trim that saturates it again. -/
def loud : State := out0 (fun o => { o with heldSum := 8388607, heldClipped := true, trim := 8388607 }) up

/-- The read of output 0's delay line, and its reread, fail. -/
def lineFails : List Access := [⟨.delay, 0, 0, false⟩, ⟨.delay, 0, 0, true⟩]

/-- An output whose line is read at every house sample. -/
def delayed : State := out0 (fun o => { o with delay := 1, valid := 2, writeIdx := 5 }) up

/-- Output 0 after DUCK_END: silent, with its mute step of this house sample taken. -/
def ducked : State := out0 (fun o => { o with m := 0, stepTaken := true }) up

/-- R134, log 6: the house sample event after DUCK_END takes no second mute step, and the next one does. -/
theorem test_noSecondStep :
    ((houseSample quietReads ducked).outs[0]?.map fun o => (o.m, o.stepTaken)) = some (0, false) ∧
    ((houseSample quietReads (out0 (fun o => { o with m := 0 }) up)).outs[0]?.map fun o => o.m) = some 65536 := by
  decide +kernel

theorem witness_OutputSamples :
    (ducked.resetLine = false ∧ ducked.clock.phase = .running ∧
      ducked.outs[0]? = some { outReset with m := 0, stepTaken := true }) ∧
    (up.resetLine = false ∧ up.clock.phase = .running ∧ up.outs[63]? = some outReset ∧ outReset.stepTaken = false ∧
      outReset.pendingDelay = none) ∧
    ((ducking 65536).outs[0]? = some { outReset with m := 65536, pendingDelay := some 300 } ∧ 0 < 65536 ∧
      65536 - 65536 = 0 ∧ 131072 - 65536 ≠ 0) ∧
    (loud.resetLine = false ∧ loud.clock.phase = .running ∧
      loud.outs[0]? = some { outReset with heldSum := 8388607, heldClipped := true, trim := 8388607 } ∧
      8388607 < (((8388607 * 8388607 : Int) + 2097152) >>> 22) ∧ loud.notices.routing.getD 12 none = some .system) ∧
    (delayed.resetLine = false ∧ delayed.clock.phase = .running ∧
      (lineStep lineFails (delayCapacity delayed.pagesD) ((1024 - delayed.pagesD) * 1024) 0 1 5 2 0 []).failed.isSome = true ∧
      delayed.notices.routing.getD 0 none = some .system) ∧
    (State.reset.resetLine = false ∧ State.reset.clock.phase = .starting ∧ State.reset.outs[0]? = some outReset) := by
  and_intros <;> decide +kernel

theorem witness_Outset :
    (up.Serves 0x37 .system ∧ (16777215 : Nat) < 2 ^ 24 ∧ (65535 : Nat) < 2 ^ 16 ∧ min 65535 (maxDelay up.pagesD) = 8191 ∧
      63 < (64 : Byte).toNat ∧ (63 : Byte).toNat ≤ 63 ∧ 2 ^ 23 ≤ 8388608 ∧ 8388607 < 2 ^ 23 ∧ 1 < (2 : Byte).toNat ∧
      up.outs[63]? = some outReset) ∧
    (locked.Serves 0x37 .system ∧ locked.bus.lock = true ∧ 8388607 ≠ outReset.trim ∧ up.bus.lock = false ∧
      0 = outReset.pendingDelay.getD outReset.delay ∧ 8191 ≠ outReset.delay ∧ outReset.pendingDelay = none ∧ outReset.m ≠ 0) ∧
    ((out0 (fun o => { o with m := 0 }) up).Serves 0x37 .system ∧
      (out0 (fun o => { o with m := 0 }) up).outs[0]? = some { outReset with m := 0 } ∧ (ducking 65536).Serves 0x37 .system) ∧
    ((ducking 65536).resetLine = false ∧ (ducking 65536).clock.phase = .running ∧
      (ducking 65536).outs[0]? = some { outReset with m := 65536, pendingDelay := some 300 } ∧
      (ducking 0).outs[0]? = some { outReset with m := 0, pendingDelay := some 300 } ∧
      (ducking 131072).outs[0]? = some { outReset with m := 131072, pendingDelay := some 300 } ∧ 65536 < 131072) := by
  and_intros <;> decide +kernel

theorem witness_Mutes :
    (up.Serves 0x37 .system ∧ 7 < (8 : Byte).toNat ∧ 1 < (2 : Byte).toNat ∧ (7 : Byte).toNat ≤ 7 ∧ (1 : Byte).toNat ≤ 1) ∧
    (up.resetLine = false ∧ (0x72 : Byte) ≠ 0x70 ∧ (0x72 : Byte) ≠ 0x71 ∧ up.muteAccepted = false ∧ up.gcMute ≠ true ∧
      up.gcMute = false ∧ { up with muteAccepted := true }.muteAccepted = true) := by decide +kernel

/-- The two accesses of a failed read of output 0's line, at the house sample 20 alone; one of them at every other. -/
def lineFaults (j : Nat) : List Access :=
  { reader := .delay, index := 0, tap := 0, reread := false } ::
    if j = 20 then [{ reader := .delay, index := 0, tap := 0, reread := true }] else []

/-- Delays that change at every house sample, from 0 to 15. -/
def lineDelay (j : Nat) : Nat := 5 * j % 16

/-- A delay line of 16 words under those delays and faults, begun at its last word. -/
def lineRun (ys : Nat → Int) : Nat → LineStep
  | 0 => lineStep (lineFaults 0) 16 393216 0 (lineDelay 0) 15 0 (ys 0) []
  | j + 1 => lineStep (lineFaults (j + 1)) 16 393216 0 (lineDelay (j + 1)) (lineRun ys j).writeIdx (lineRun ys j).valid
      (ys (j + 1)) (lineRun ys j).mem

/-- Samples at both ends of the range. -/
def lineSamples (j : Nat) : Int := if j = 0 then -8388608 else 8388607 - j % 100

/-- R40, R43, R149: after 21 house samples, with the delay then 4, the read and its reread fail; one house sample later,
with the delay 9 and one fault, the line gives the sample of nine before. -/
theorem test_lineRun :
    ((lineRun lineSamples 20).out, (lineRun lineSamples 20).failed) = (0, some 15) ∧
    ((lineRun lineSamples 21).out, (lineRun lineSamples 21).failed) = (lineSamples 12, none) ∧
    (lineRun lineSamples 3).out = 0 := by
  decide +kernel

theorem witness_DelayLine (ys : Nat → Int) :
    (Memory.wf [] = true ∧ 0 < 16 ∧ 15 < 16 ∧ (∀ j, lineDelay j < 16) ∧
      lineRun ys 0 = lineStep (lineFaults 0) 16 393216 0 (lineDelay 0) 15 0 (ys 0) [] ∧
      (∀ j, lineRun ys (j + 1) = lineStep (lineFaults (j + 1)) 16 393216 0 (lineDelay (j + 1)) (lineRun ys j).writeIdx
        (lineRun ys j).valid (ys (j + 1)) (lineRun ys j).mem)) ∧
    (∀ j, -8388608 ≤ lineSamples j ∧ lineSamples j ≤ 8388607) ∧
    ({ reader := .delay, index := 0, tap := 0, reread := true } ∈ lineFaults 20 ∧ lineDelay 20 ≤ 20 ∧
      { reader := .delay, index := 0, tap := 0, reread := true } ∉ lineFaults 21 ∧ lineDelay 21 ≤ 21 ∧
      3 < lineDelay 3) ∧
    (Memory.wf [(393216, { sample := 5, good := false })] = true ∧ 1 < 16 ∧ 15 < 16 ∧ 16 ≤ 16 ∧
      (Memory.read [(393216, { sample := 5, good := false })] (393216 + (1 + 16 - 1) % 16)).good = false ∧
      1 < min (16 + 1) 16 ∧ min (0 + 1) 16 ≤ 1 ∧ 0 < min (0 + 1) 16) ∧ (1 ≤ 1 ∧ 1024 ≤ 1024) := by
  refine ⟨⟨rfl, by decide, by decide, fun j => Nat.mod_lt _ (by decide), rfl, fun _ => rfl⟩,
    fun j => ?_, ?_, ?_, by decide⟩
  · unfold lineSamples
    split <;> omega
  · decide +kernel
  · decide +kernel

/-- A list of so many cues of one trigger. -/
def cued (k : Nat) : State := { up with cues := List.replicate k ⟨1, .system, 10, .mark, 0, false⟩ }

theorem witness_CueList :
    (up.Serves 0x37 .system ∧ (1099511627775 : Nat) < 2 ^ 40 ∧ 4 < (5 : Byte).toNat ∧ (4 : Byte).toNat ≤ 4) ∧
    ((cued 32).Serves 0x37 .system ∧ 32 ≤ (cued 32).cues.length) ∧
    ((cued 31).Serves 0x37 .system ∧ (cued 31).cues.length < 32 ∧ (cued 31).CuesOk) ∧
    (listed.Serves 0x37 .system ∧ listed.CuesOk ∧
      (listed.cues.filter fun c : Cue => !(c.tag == 2 && c.poster == .system)) = listed.cues ∧
      (listed.cues.filter fun c : Cue => !(c.tag == 1 && c.poster == .system)) ≠ listed.cues) := by
  and_intros <;> decide +kernel

/-- A cue with an action and an argument. -/
def cueOf (action : CueAction) (arg : Byte) (late : Bool) : Cue := ⟨1, .system, 10, action, arg, late⟩

theorem witness_CuePass :
    (([cueOf .mark 0 true, cueOf .take 0 false].filter fun c => c.late || decide (c.trigger ≤ up.sel.pos)) =
        [cueOf .mark 0 true] ∧
      ([cueOf .mark 0 true, cueOf .take 0 false].filter fun c => !(c.late || decide (c.trigger ≤ up.sel.pos))) =
        [cueOf .take 0 false]) ∧
    (∀ c ∈ { up with cues := [cueOf .mark 0 false] }.cues, c.late = false ∧ up.sel.pos < c.trigger) ∧
    (∃ res t, cueAct (cueOf .mark 0 true) up = (res, t)) ∧
    ((cueOf .mark 0 true).action = .mark ∧ (cueOf .take 0 false).action = .take ∧ sealedUp.scene.state = .sealed 2 ∧
      (cueOf .groupMute 8 false).action = .groupMute ∧ 7 < (cueOf .groupMute 8 false).arg.toNat ∧
      (cueOf .groupUnmute 7 false).arg.toNat ≤ 7 ∧ (cueOf .switch 1 false).action = .switch) ∧
    (∀ kr, up.scene.state ≠ .sealed kr) :=
  ⟨by decide +kernel, by decide +kernel, ⟨_, _, rfl⟩, by decide +kernel, not_sealed (.inl rfl)⟩

/-- Two notices in the system controller's queue. -/
def noticed : State := raise .clock [0, 0, 0, 0] (raise .damage [0, 1, 0, 2] up)

theorem witness_NoteFetch :
    (noticed.Hears 0x37 .system ∧ noticed.NoticesOk ∧ (List.replicate 250 (0 : Byte)).length ≤ 250 ∧ [(0 : Byte)] ≠ []) ∧
    ((caughtUp noticed).notices.queues.get .system =
      ⟨.damage, 1, [0, 1, 0, 2], 0⟩ :: [⟨.clock, 1, [0, 0, 0, 0], 0⟩]) ∧
    (up.Hears 0x34 .feedA ∧ up.NoticesOk ∧ (caughtUp up).notices.queues.get .feedA = []) := by
  and_intros <;> decide +kernel

theorem witness_Ident : State.reset.Hears 0x34 .feedA ∧ up.Hears 0x37 .system ∧ (List.replicate 250 (0 : Byte)).length ≤ 250 ∧
    [(0 : Byte)] ≠ [] := by decide +kernel

/-- Feed A with a source end. -/
def ended : State := up.onFeed .a fun f => { f with sourceEnd := some 31 }

theorem witness_StatusCommands :
    (State.reset.Hears 0x34 .feedA ∧ State.reset.clock.phase = .starting ∧ listed.Hears 0x37 .system ∧
      listed.cues = ⟨1, .render, 10, .mark, 0, false⟩ :: [⟨1, .system, 10, .groupMute, 2, true⟩] ∧ up.cues = []) ∧
    (up.Serves 0x34 .feedA ∧ up.feedA.completion = none ∧ (pendingAt 33).Serves 0x34 .feedA ∧
      (pendingAt 33).feedA.completion = some ⟨.count, 7⟩ ∧ (pendingAt 33).feedA.pendingPlay = some ⟨33, 0⟩ ∧
      ended.feedA.sourceEnd = some 31 ∧ up.feedA.watch.bad < 4 ∧
      up.feedA.watch.good < 4) ∧
    (sealedUp.Serves 0x36 .render ∧
      (sealedUp.scene.active.find? fun e : ActiveRoute => e.key == (5 : Byte).toNat * 256 + (3 : Byte).toNat) =
        some ⟨3, 5, 0, 3, 600000, -150000, 4, true⟩ ∧
      (sealedUp.scene.pendingBank.find? fun e : RouteEntry => e.key == (5 : Byte).toNat * 256 + (3 : Byte).toNat) =
        some ⟨3, 5, 1000000, 0⟩ ∧
      (sealedUp.scene.active.find? fun e : ActiveRoute => e.key == (63 : Byte).toNat * 256 + (95 : Byte).toNat) = none ∧
      (sealedUp.scene.pendingBank.find? fun e : RouteEntry => e.key == (63 : Byte).toNat * 256 + (95 : Byte).toNat) = none) ∧
    (95 < (96 : Byte).toNat ∧ 63 < (64 : Byte).toNat ∧ (95 : Byte).toNat ≤ 95 ∧ (63 : Byte).toNat ≤ 63 ∧ (1 : Byte).toNat ≤ 1 ∧
      1 < (2 : Byte).toNat ∧ up.cues.length < 256 ∧ up.outs[(63 : Byte).toNat]? = some outReset) := by
  and_intros <;> decide +kernel

theorem witness_SystemSettings :
    (up.Serves 0x37 .system ∧ 1 < (2 : Byte).toNat ∧ (1 : Byte).toNat ≤ 1 ∧ (caughtUp up).sel.state.inTransition = false ∧
      cross.Serves 0x37 .system ∧ (caughtUp cross).sel.state.inTransition = true) ∧
    (up.bus.lock = false ∧ locked.Serves 0x37 .system ∧ locked.bus.lock = true ∧ ([1, 0, 255] : List Byte).length = 3 ∧
      (List.replicate 6 (0 : Byte)).length = 6) ∧
    ((∀ v ∈ [(1, 3), (16, 255), (17, 0)], v.1 < 256 ∧ v.2 < 256) ∧ up.notices.routing.length = 16 ∧
      [(1, 3), (16, 255), (17, 0)][2]? = some (17, 0) ∧
      (∀ d ∈ [(1, 3), (16, 255), (17, 0)].take 2, 1 ≤ d.1 ∧ d.1 ≤ 16 ∧ (d.2 ≤ 3 ∨ d.2 = 255)) ∧
      [(0, 0)][0]? = some (0, 0) ∧ [(1, 4)][0]? = some (1, 4) ∧ 3 < 4 ∧ 4 ≠ 255) := by and_intros <;> decide +kernel

theorem witness_Partition :
    (up.Serves 0x37 .system ∧ up.bus.lock = false ∧ 1024 < 1023 + 1 + 1 ∧ 1022 + 1 + 1 ≤ 1024) ∧
    (solo.Serves 0x37 .system ∧ (caughtUp solo).feedA.inPlay = true) ∧
    ((caughtUp up).feedA.inPlay = false ∧ (caughtUp up).feedB.inPlay = false ∧
      2 ^ (caughtUp up).feedA.setup.dExp * (caughtUp up).feedA.setup.n ≤ 32 * 1024 ∧
      31 * 1024 < 2 ^ (caughtUp up).feedA.setup.dExp * (caughtUp up).feedA.setup.n) ∧
    ((pendingAt 33).Serves 0x37 .system ∧ (pendingAt 33).bus.lock = false ∧ (pendingAt 33).feedA.inPlay = false ∧
      (pendingAt 33).feedB.inPlay = false ∧ (pendingAt 33).feedA.pendingPlay.isSome = true) := by
  and_intros <;> decide +kernel

/-- An awaiting take and one awaiting STOP. -/
def waiting : State := doing .render 0x25 (stopping .a true { solo with scene := { sealedScene with take := .waiting } })

/-- A SCNOPEN that waits for its copy. -/
def copying : State :=
  doing .render 0x20 { up with scene := { sealedScene with state := .building, pendingBank := [], copy := .waiting } }

/-- A FLUSH in execution that found the most that its answer holds. -/
def flushing : State := doing .system 0x49 { up with bus := { up.bus with flush := some ⟨1, 65535, 255⟩ } }

/-- Two awaiting STOPs of a crossfade's two feeds, the second one's block event still to come. -/
def twoStops : State :=
  doing .feedB 0x12 ((stopping .a false cross).onSel fun v =>
    { v with awaiting := [⟨.stop .feedA .a false, true⟩, ⟨.stop .feedB .b true, false⟩] })

theorem witness_Flush_stops :
    (twoStops.Serves 0x37 .system ∧ twoStops.sel.awaiting = [] ++ ⟨.stop .feedA .a false, true⟩ :: [⟨.stop .feedB .b true, false⟩] ∧
      twoStops.sel.awaiting = [⟨.stop .feedA .a false, true⟩] ++ ⟨.stop .feedB .b true, false⟩ :: [] ∧
      twoStops.bus.slots.get .feedA = .executing 0x12 ∧ twoStops.bus.slots.get .feedB = .executing 0x12) ∧
    (∀ e ∈ [] ++ [(⟨.stop .feedB .b true, false⟩ : Awaiting)], ∀ y k, e.order ≠ .stop .feedA y k) ∧
    (∀ e ∈ [(⟨.stop .feedA .a false, true⟩ : Awaiting)] ++ [], ∀ y k, e.order ≠ .stop .feedB y k) := by
  refine ⟨by decide +kernel, fun e he y k q => ?_, fun e he y k q => ?_⟩
  · rw [List.mem_singleton.mp he] at q
    cases q
  · rw [List.mem_singleton.mp he] at q
    cases q

/-- R108, R177: FLUSH answers both NOTHING. -/
theorem test_flushStops :
    ([Role.feedA, .feedB].map fun r => answerOf (exec (.flush 0x37 []) twoStops) r) =
      [(.nothing, [0]), (.nothing, [0])] := by decide +kernel

theorem witness_Flush :
    (waiting.Serves 0x37 .system ∧ waiting.scene.take ≠ .none ∧ waiting.bus.slots.get .render = .executing 0x25) ∧
    (∀ e ∈ waiting.sel.awaiting, ∃ r x h, r ≠ Role.system ∧ e.order = .stop r x h) ∧
    (∀ e ∈ waiting.sel.awaiting, ∀ x h, e.order ≠ .stop .render x h) ∧
    (waiting.sel.awaiting = [⟨.stop .feedA .a true, true⟩] ∧ waiting.bus.slots.get .feedA = .executing 0x12) ∧
    (copying.Serves 0x37 .system ∧ copying.scene.copy ≠ .none ∧ copying.sel.awaiting = [] ∧
      copying.bus.slots.get .render = .executing 0x20) ∧
    (flushing.resetLine = false ∧ flushing.bus.flush = some ⟨1, 65535, 255⟩ ∧
      flushing.bus.slots.get .system = .executing 0x49 ∧ up.bus.flush = none) := by
  have h : ∀ e ∈ waiting.sel.awaiting, e = ⟨.stop .feedA .a true, true⟩ := fun e he => List.mem_singleton.mp he
  refine ⟨?_, fun e he => ⟨.feedA, .a, true, nofun, h e he ▸ rfl⟩, fun e he x k q => ?_, ?_, ?_, ?_⟩
  · decide +kernel
  · rw [h e he] at q
    cases q
  all_goals decide +kernel

theorem witness_SampleMemory : 1048575 < 1048576 ∧ 1048576 ≤ 1048576 ∧ Memory.wf [(0, ⟨1, true⟩), (1, ⟨0, false⟩)] = true ∧
    ∀ a, Memory.read [(0, ⟨1, true⟩)] a = Memory.read [(0, ⟨1, true⟩)] a := by
  refine ⟨by decide, by decide, by decide +kernel, fun _ => rfl⟩

/-! ### Invariants: a state on air that has each, and whose step has a next state -/

/-- A on air with B its aligned standby at a block event, one block in A's ring, a sealed bank, two cues and a
notice. -/
def rich : State :=
  { air.onFeed .a (fun f =>
      { f with h := 32, ring := f.ring.set 0 { stamp := some 0, state := .good, got := { l0 := true, l1 := false } } }) with
    mem := [(0, ⟨5, true⟩)], scene := sealedScene, cues := listed.cues, notices := noticed.notices
    blockDue := true, pending := [.blockEvent false false] }

theorem rich_steps : ∃ t, step rich = .next t := ⟨_, rfl⟩

theorem witness_StepKeepsStores : (rich.MemOk ∧ rich.GainsOk ∧ rich.CuesOk) ∧ ∃ t, step rich = .next t := by
  refine ⟨?_, rich_steps⟩
  and_intros <;> decide +kernel

theorem witness_StepKeepsNotices : (∃ t, step rich = .next t) ∧ rich.NoticesOk ∧ QueueOk rich.notices.queues.r3 ∧
    (∀ v ∈ rich.notices.queues.r3, v.kind ≠ .mute) ∧ ∃ v ∈ rich.notices.queues.r3, v.kind = .clock := by
  refine ⟨rich_steps, ?_⟩
  and_intros <;> decide +kernel

theorem witness_StepKeepsBanks : rich.BanksOk ∧ rich.RoutesOk ∧ ∃ t, step rich = .next t := by
  refine ⟨⟨⟨by decide +kernel, by decide +kernel, by decide +kernel, by decide +kernel, ?_⟩, by decide +kernel⟩,
    by decide +kernel, rich_steps⟩
  rintro kr h
  have h : PendState.sealed 2 = .sealed kr := h
  cases h
  decide

theorem witness_StepKeepsClock :
    (∃ t, step rich = .next t) ∧ rich.clock.Ok ∧ (holding (.counting 1024) 1 rich).clock.Ok := by
  refine ⟨rich_steps, ?_, ?_⟩
  · refine ⟨?_, ?_, ?_, ?_, ?_, ?_, ?_, ?_, ?_, ?_, (rfl : (0 : Nat) = 0)⟩ <;> decide +kernel
  · refine ⟨?_, ?_, ?_, ?_, ?_, ?_, ?_, ?_, ?_, ?_, (le_refl 1 : 1 ≤ 1)⟩ <;> decide +kernel

theorem witness_StepKeepsRings : rich.RingsOk ∧ ∃ t, step rich = .next t := by
  refine ⟨both ⟨ring_ok ?_ ?_ ?_ ?_, ?_, none_meets ?_ _⟩ ⟨ring_ok ?_ ?_ ?_ ?_, ?_, none_meets ?_ _⟩, rich_steps⟩ <;>
    decide +kernel

theorem rich_program : rich.ProgramOk := by
  refine ⟨both (by decide +kernel) (by decide +kernel), ?_, ⟨fun _ => ⟨.b, by decide +kernel⟩,
    none_meets (by decide +kernel) _, fun h => absurd h (by decide +kernel), by decide +kernel⟩,
    both (by decide +kernel) (by decide +kernel), fun x h => ?_⟩
  · show (rich.feed .a).st = .running ∧ (rich.feed .a).role = .leader ∧
      ((rich.feed .b).isRead = true → (rich.feed .b).isStandby = true)
    decide +kernel
  · exact absurd h (by cases x <;> decide +kernel)

theorem witness_StepKeepsProgram : rich.ProgramOk ∧ ∃ t, step rich = .next t := ⟨rich_program, rich_steps⟩

theorem witness_StepKeepsRatios : rich.ProgramOk ∧ rich.RatiosOk ∧ ∃ t, step rich = .next t := by
  refine ⟨rich_program, ⟨both (by decide +kernel) (by decide +kernel), ?_⟩, rich_steps⟩
  show rich.sel.aligned = true → rich.feedA.rs.rNom = rich.feedB.rs.rNom
  decide +kernel

end Sys2Proof.Tests
end

section
/-!
SUPPORT. A STOP that ends its feed at once (R57, R59, R60): the frame's way to the feed unit, what a completion
changes, and why the selector is left without a standby.
-/

namespace Sys2Proof.Machine

open Sys2Proof

/-! ## The frame of a feed command (R170) -/

theorem sideOf_code_byte (x : Side) : sideOf (BitVec.ofNat 8 x.code).toNat = some x := by cases x <;> rfl

theorem feedField_code (x : Side) (rest : List Byte) : feedField (BitVec.ofNat 8 x.code :: rest) = x := by
  show (sideOf (BitVec.ofNat 8 x.code).toNat).getD .a = x
  rw [sideOf_code_byte]
  rfl

theorem foreignFeed_of_mayCommand {r : Role} {x : Side} (h : MayCommand r x) : foreignFeed r x = false := by
  obtain rfl | ⟨rfl, rfl⟩ | ⟨rfl, rfl⟩ := h <;> rfl

theorem mayIssue_stop_of_mayCommand {r : Role} {x : Side} (h : MayCommand r x) : mayIssue 0x12 r = true := by
  obtain rfl | ⟨rfl, -⟩ | ⟨rfl, -⟩ := h <;> rfl

/-- The interface passes a STOP of a role that may command the feed it names (R170). -/
theorem judge_stop {r : Role} {x : Side} (h : MayCommand r x) (mode : Byte) :
    judge (0x12 : Byte).toNat r [BitVec.ofNat 8 x.code, mode] false = none := by
  have field : judgeFeedField 0x12 r [BitVec.ofNat 8 x.code, mode] = none := by
    simp only [judgeFeedField, sideOf_code_byte, foreignFeed_of_mayCommand h]
    rfl
  simp [judge, field, mayIssue_stop_of_mayCommand h, knownCode]

/-- A STOP that the part serves reaches the feed unit that it names (R59, R170). -/
theorem exec_stop_served {s : State} {addr : BitVec 7} {r : Role} {x : Side} (hs : s.Serves addr r)
    (hr : MayCommand r x) (mode : Byte) :
    exec (.stop addr [BitVec.ofNat 8 x.code, mode]) s =
      .next (stop [BitVec.ofNat 8 x.code, mode] x r (handedOver r 0x12 s)) := by
  rw [exec_frame (i := .stop addr [BitVec.ofNat 8 x.code, mode]) rfl (by simp),
    takeFrame_served _ hs (judge_stop hr mode)]
  show Host.Outcome.next (stop _ (feedField _) r _) = _
  rw [feedField_code]

/-! ## STOP by the feed's state (R59, R60) -/

theorem boolOf_of_le_one {n : Nat} (h : n ≤ 1) : boolOf n = some (n == 1) := by
  obtain rfl | rfl := Nat.le_one_iff_eq_zero_or_eq_one.mp h <;> rfl

/-- A mode that has a meaning leads to the act by the feed's state (R59). -/
theorem stop_of_mode {mode : Byte} (h : mode.toNat ≤ 1) (b : Byte) (x : Side) (r : Role) (s : State) :
    stop [b, mode] x r s = stopFeed x (!(mode.toNat == 1)) r s := by
  have field : u8 [b, mode] 1 = mode.toNat := rfl
  simp only [stop, field, boolOf_of_le_one h]

/-- The feeds that a STOP ends at once (R60). -/
abbrev Feed.StopsAtOnce (f : Feed) : Prop :=
  f.st = .seeking ∨ f.st = .primed ∨ f.st = .running ∧ f.role = .standby

/-- A STOP of such a feed completes it, whatever the mode (R60). -/
theorem stopFeed_atOnce {x : Side} {s : State} (h : (s.feed x).StopsAtOnce) (handover : Bool) (r : Role) :
    stopFeed x handover r s = complete r .ok [2] (completeFeed x .stopped s) := by
  obtain hst | hst | ⟨hst, hrole⟩ := h
  · simp only [stopFeed, hst]
  · simp only [stopFeed, hst]
  · simp [stopFeed, hst, hrole]

/-! ## A completion (R57) -/

/-- The bus interface takes no part in a completion. -/
theorem completeFeed_handedOver (x : Side) (reason : Reason) (r : Role) (code : Byte) (s : State) :
    completeFeed x reason (handedOver r code s) =
      { completeFeed x reason (caughtUp s) with bus := (caughtUp s).bus.handedOver r code } := by
  cases x <;> rfl

/-- What a completion changes: the feed, the notices, and the selector's word on its standby. -/
theorem completeFeed_eq (x : Side) (reason : Reason) (s : State) :
    completeFeed x reason s =
      { (s.setFeed x ((s.feed x).completed reason)) with
        notices := (raise .feeddone (be 1 x.code ++ be 1 (reasonCode (some reason)) ++ low16 (s.feed x).rs.i) s).notices
        sel := s.sel.dropped x (s.feed x).isStandby } := rfl

@[simp] theorem completeFeed_feed (x y : Side) (reason : Reason) (s : State) :
    (completeFeed x reason s).feed y = if y = x then (s.feed x).completed reason else s.feed y := by
  cases x <;> cases y <;> rfl

@[simp] theorem Feed.completed_isStandby (f : Feed) (reason : Reason) : (f.completed reason).isStandby = false := rfl

/-! ## The standby (R87) -/

theorem Feed.isStandby_iff (f : Feed) : f.isStandby = true ↔ f.st = .running ∧ f.role = .standby := by
  simp [Feed.isStandby]

theorem Feed.isRead_of_isStandby {f : Feed} (h : f.isStandby = true) : f.isRead = true := by
  rw [Feed.isRead, (f.isStandby_iff.mp h).1]

theorem Feed.isStandby_of_role_ne {f : Feed} (h : f.role ≠ .standby) : f.isStandby = false := by
  simp [Feed.isStandby, h]

theorem Side.eq_or_eq_other (x y : Side) : x = y ∨ x = y.other := by cases x <;> cases y <;> decide

/-- A state with a leader has its only standby, if any, on the other side (R87). -/
theorem isStandby_other_of_leader {s : State} {l x : Side} (hl : (s.feed l).role = .leader)
    (hx : (s.feed x).isStandby = true) : (s.feed x.other).isStandby = false := by
  have lead : (s.feed l).isStandby = false := Feed.isStandby_of_role_ne (by simp [hl])
  obtain rfl | rfl := Side.eq_or_eq_other x l
  · simp [lead] at hx
  · simpa using lead

/-- There is at most one standby (R87). -/
theorem State.RolesOk.isStandby_other {s : State} (h : s.RolesOk) {x : Side} (hx : (s.feed x).isStandby = true) :
    (s.feed x.other).isStandby = false := by
  unfold State.RolesOk at h
  cases hsel : s.sel.state with rw [hsel] at h
  | silent => exact (h x (Feed.isRead_of_isStandby hx)).2
  | onair l | rise l | fade l =>
    obtain ⟨-, leads, -⟩ := h
    exact isStandby_other_of_leader leads hx
  | xfade o =>
    obtain ⟨-, -, leads, -⟩ := h
    exact isStandby_other_of_leader leads hx

theorem State.standby_eq_none {s : State} (h : ∀ y, (s.feed y).isStandby = false) : s.standby = none := by
  have ha : s.feedA.isStandby = false := h .a
  have hb : s.feedB.isStandby = false := h .b
  simp [State.standby, ha, hb]

/-- The completion of the standby leaves the selector without one (R57, R87). -/
theorem completeFeed_standby_none {s : State} (h : s.RolesOk) {x : Side} (hx : (s.feed x).isStandby = true)
    (reason : Reason) : (completeFeed x reason s).standby = none := by
  refine State.standby_eq_none fun y => ?_
  obtain rfl | rfl := Side.eq_or_eq_other y x
  · simp
  · simpa using h.isStandby_other hx

/-- Where a feed that a STOP ends at once stands: at S while it waits, and at the program position as the standby
(R50, R70). -/
theorem State.ProgramOk.position_of_stopsAtOnce {s : State} (h : s.ProgramOk) {x : Side}
    (hx : (s.feed x).StopsAtOnce) :
    (s.feed x).rs.i = if (s.feed x).st = .running then s.sel.pos else (s.feed x).startPos := by
  obtain ⟨records, -, -, slaved, -⟩ := h
  obtain ⟨-, -, -, -, waiting, -⟩ := records x
  obtain hst | hst | running := hx
  · simp [hst, (waiting (.inl hst)).1]
  · simp [hst, (waiting (.inr hst)).1]
  · simp [running.1, (slaved x ((Feed.isStandby_iff _).mpr running)).1]

/-! ## STOP at once (R60) -/

/-- A served STOP of such a feed is its completion in the state caught up, answered OK with data 2 (R60). -/
theorem exec_stop_atOnce {s : State} {addr : BitVec 7} {r : Role} {x : Side} {mode : Byte} (hs : s.Serves addr r)
    (hr : MayCommand r x) (hm : mode.toNat ≤ 1) (hf : ((caughtUp s).feed x).StopsAtOnce) :
    exec (.stop addr [BitVec.ofNat 8 x.code, mode]) s =
      .next ((completeFeed x .stopped (caughtUp s)).answered r 0x12 .ok [2]) := by
  rw [exec_stop_served hs hr, stop_of_mode hm, stopFeed_atOnce (by simpa using hf), completeFeed_handedOver,
    complete_of_bus rfl]
  rfl

/-- Settles O22: the STOP is a completion of the state caught up, whose position and standby the program invariant
gives. -/
theorem stopAtOnce : Obligations.StopAtOnce := by
  rintro s c addr r x mode f final hs hr rfl rfl hm hp hf rfl
  refine ⟨completeFeed x .stopped (caughtUp s), ((caughtUp s).feed x).completed .stopped,
    exec_stop_atOnce hs hr hm hf, ?_, rfl, ?_, rfl, fun run => ?_⟩
  · rw [← hp.position_of_stopsAtOnce hf]
    exact completeFeed_eq x .stopped (caughtUp s)
  · rw [← hp.position_of_stopsAtOnce hf]
    rfl
  · obtain ⟨-, roles, -⟩ := hp
    obtain hst | hst | running := hf
    · simp [hst] at run
    · simp [hst] at run
    · exact completeFeed_standby_none roles ((Feed.isStandby_iff _).mpr running) .stopped

end Sys2Proof.Machine
end

section
/-!
SUPPORT. The scene commands of the render processor that change the pending state (R117, R118): the way of a served
frame to its owner, each owner by the pending state, and the take of an empty bank.
-/

namespace Sys2Proof.Machine

open Sys2Proof

/-! ## A frame that is served, and one that is not taken (R167, R170, R190) -/

/-- The interface passes a command without a feed field that the role may issue (R170). -/
theorem judge_none {c : Nat} {r : Role} {p : List Byte} (hp : p.length ≤ 250) (known : knownCode c = true)
    (may : mayIssue c r = true) (noField : isFeedCode c = false) : judge c r p false = none := by
  have field : judgeFeedField c r p = none := by simp [judgeFeedField, noField]
  simp [judge, Nat.not_lt.mpr hp, known, may, field]

/-- A served command whose payload has a length of the table of spec/12 reaches its owner's act (R170, R190). -/
theorem exec_served {i : Instr} {code : Byte} {addr : BitVec 7} {p : List Byte} {r : Role} {s : State}
    (hi : i.frame = some (code, addr, p)) (hs : s.Serves addr r) (hp : p.length ≤ 250)
    (hj : judge code.toNat r p false = none) (hl : goodLength code.toNat p.length = true) :
    exec i s = .next (Instr.owner i r (handedOver r code s)) := by
  rw [exec_frame hi hp, takeFrame_served _ hs hj, hl, lengthChecked_true]

/-- No frame is taken for a role whose command is in execution (R167). -/
theorem exec_executing {i : Instr} {code d : Byte} {addr : BitVec 7} {p : List Byte} {r : Role} {s : State}
    (hi : i.frame = some (code, addr, p)) (hr : roleAt s.bus.strap addr = some r)
    (hx : s.bus.slots.get r = .executing d) : exec i s = .next s := by
  obtain ⟨owner, run⟩ := exec_takeFrame hi s
  have busy : s.executing r = true := by rw [State.executing, hx]
  rw [run]
  simp [takeFrame, hr, busy]

/-- A command of the render processor's own, in order and served, reaches the scene store (R170). -/
theorem exec_scene_served {i : Instr} {code : Byte} {addr : BitVec 7} {p : List Byte} {s : State}
    (hi : i.frame = some (code, addr, p)) (hs : s.Serves addr .render) (hc : 0x20 ≤ code.toNat ∧ code.toNat ≤ 0x26)
    (hp : p.length ≤ 250) (hl : goodLength code.toNat p.length = true) :
    exec i s = .next (Instr.owner i .render (handedOver .render code s)) := by
  refine exec_served hi hs hp (judge_none hp ?_ ?_ ?_) hl
  · simp [knownCode, hc]
  · simp [mayIssue, hc]
  · simp only [isFeedCode, Bool.and_eq_false_iff, decide_eq_false_iff_not]
    omega

/-- A command whose whole effect is on the scene store leaves the state caught up, that store and the answer (R171). -/
theorem complete_handedOver_scene (r : Role) (code : Byte) (res : ResultCode) (d : List Byte) (v : Scene) (s : State) :
    complete r res d { handedOver r code s with scene := v } =
      ({ caughtUp s with scene := v }).answered r code res d := by
  rw [complete_of_bus rfl]
  rfl

/-! ## The scene commands by the pending state (R111, R114, R116 to R118) -/

theorem routeset_busy {s : State} (h : s.scene.state ≠ .building) (es : List RouteEntry) (r : Role) :
    routeset es r s = complete r .busy [] s := if_pos h

theorem routedrop_busy {s : State} (h : s.scene.state ≠ .building) (ks : List (Nat × Nat)) (r : Role) :
    routedrop ks r s = complete r .busy [] s := if_pos h

theorem scnseal_busy {s : State} (h : s.scene.state ≠ .building) (kr : Nat) (r : Role) :
    scnseal kr r s = complete r .busy [] s := if_pos h

theorem scnseal_building {s : State} (h : s.scene.state = .building) (kr : Nat) (r : Role) :
    scnseal kr r s =
      complete r (if 11 < kr then .clamped else .ok) (cap16 s.scene.pendingBank.length ++ be 1 (min kr 11))
        { s with scene := { s.scene with state := .sealed (min kr 11) } } := if_neg (not_not.mpr h)

theorem scndiscard_free {s : State} (h : s.scene.state = .free) (r : Role) :
    scndiscard r s = complete r .nothing [] s := if_pos h

theorem scndiscard_held {s : State} (h : s.scene.state ≠ .free) (r : Role) :
    scndiscard r s =
      complete r .ok (cap16 s.scene.pendingBank.length ++ be 1 s.scene.state.code)
        { s with scene := { s.scene with pendingBank := [], state := .free } } := if_neg h

/-- The byte in which SCNDISCARD names the state that it found (R118). -/
theorem PendState.code_byte {v : PendState} (h : v ≠ .free) :
    be 1 v.code = [if v = .building then 1 else 2] := by
  cases v with
  | free => exact absurd rfl h
  | building => rfl
  | sealed kr => rfl

section Served

variable {s : State} {addr : BitVec 7} (hs : s.Serves addr .render)
include hs

/-- SCNSEAL in FREE and SEALED (R117). -/
theorem exec_scnseal_busy (h : s.scene.state ≠ .building) (kr : Byte) :
    exec (.scnseal addr [kr]) s = .next ((caughtUp s).answered .render 0x23 .busy []) := by
  rw [exec_scene_served rfl hs (by decide) (by simp) rfl]
  show Host.Outcome.next (scnseal _ _ _) = _
  rw [scnseal_busy (by simpa using h), complete_handedOver]

/-- SCNSEAL in BUILDING (R117). -/
theorem exec_scnseal_building (h : s.scene.state = .building) (kr : Byte) :
    exec (.scnseal addr [kr]) s = .next
      ({ caughtUp s with scene := { s.scene with state := .sealed (min kr.toNat 11) } }.answered .render 0x23
        (if 11 < kr.toNat then .clamped else .ok)
        (cap16 s.scene.pendingBank.length ++ [BitVec.ofNat 8 (min kr.toNat 11)])) := by
  have field : u8 [kr] 0 = kr.toNat := rfl
  rw [exec_scene_served rfl hs (by decide) (by simp) rfl]
  show Host.Outcome.next (scnseal _ _ _) = _
  rw [scnseal_building (by simpa using h), complete_handedOver_scene, handedOver_scene, field, be_one]

/-- ROUTESET outside BUILDING (R114). -/
theorem exec_routeset_busy (h : s.scene.state ≠ .building) {p : List Byte} (h6 : p.length % 6 = 0)
    (hp : p.length ≤ 240) : exec (.routeset addr p) s = .next ((caughtUp s).answered .render 0x21 .busy []) := by
  have form : goodLength (0x21 : Byte).toNat p.length = true := by
    have short : p.length / 6 ≤ 40 := by omega
    simp [goodLength, h6, short]
  rw [exec_scene_served rfl hs (by decide) (by omega) form]
  show Host.Outcome.next (routeset _ _ _) = _
  rw [routeset_busy (by simpa using h), complete_handedOver]

/-- ROUTEDROP outside BUILDING (R116). -/
theorem exec_routedrop_busy (h : s.scene.state ≠ .building) {p : List Byte} (h2 : p.length % 2 = 0)
    (hp : p.length ≤ 250) : exec (.routedrop addr p) s = .next ((caughtUp s).answered .render 0x22 .busy []) := by
  have form : goodLength (0x22 : Byte).toNat p.length = true := by
    have short : p.length / 2 ≤ 125 := by omega
    simp [goodLength, h2, short]
  rw [exec_scene_served rfl hs (by decide) hp form]
  show Host.Outcome.next (routedrop _ _ _) = _
  rw [routedrop_busy (by simpa using h), complete_handedOver]

/-- SCNDISCARD in FREE (R118). -/
theorem exec_scndiscard_free (h : s.scene.state = .free) :
    exec (.scndiscard addr []) s = .next ((caughtUp s).answered .render 0x24 .nothing []) := by
  rw [exec_scene_served rfl hs (by decide) (by simp) rfl]
  show Host.Outcome.next (scndiscard _ _) = _
  rw [scndiscard_free (by simpa using h), complete_handedOver]

/-- SCNDISCARD in BUILDING and SEALED (R118). -/
theorem exec_scndiscard_held (h : s.scene.state ≠ .free) :
    exec (.scndiscard addr []) s = .next
      ({ caughtUp s with scene := { s.scene with pendingBank := [], state := .free } }.answered .render 0x24 .ok
        (cap16 s.scene.pendingBank.length ++ [if s.scene.state = PendState.building then 1 else 2])) := by
  rw [exec_scene_served rfl hs (by decide) (by simp) rfl]
  show Host.Outcome.next (scndiscard _ _) = _
  rw [scndiscard_held (by simpa using h), complete_handedOver_scene, handedOver_scene, PendState.code_byte h]

end Served

/-! ## Routes joined in key order (R110, R124) -/

/-- A route below every key of the bank joins at its head. -/
theorem insertRoute_of_lt {e : ActiveRoute} {bank : List ActiveRoute} (h : ∀ x ∈ bank, e.key < x.key) :
    insertRoute e bank = e :: bank := by
  cases bank with
  | nil => rfl
  | cons x xs => exact if_pos (h x List.mem_cons_self)

/-- Routes in key order keep their places when they join an empty bank. -/
theorem foldr_insertRoute_nil {rel : List ActiveRoute} (h : rel.Pairwise fun d e => d.key < e.key) :
    rel.foldr insertRoute [] = rel := by
  induction rel with
  | nil => rfl
  | cons e es ih =>
    obtain ⟨below, rest⟩ := List.pairwise_cons.mp h
    rw [List.foldr_cons, ih rest, insertRoute_of_lt below]

theorem mem_foldr_insertRoute {x : ActiveRoute} {rel bank : List ActiveRoute} (h : x ∈ rel.foldr insertRoute bank) :
    x ∈ rel ∨ x ∈ bank := by
  induction rel with
  | nil => exact .inr h
  | cons e es ih =>
    obtain rfl | joined := insertRoute_mem h
    · exact .inl List.mem_cons_self
    · exact (ih joined).imp_left (List.mem_cons_of_mem _)

/-! ## The releases of a take (R122, R123) -/

theorem mem_of_mem_keptReleases {x : ActiveRoute} {rel : List ActiveRoute} {headroom : Nat}
    (h : x ∈ keptReleases rel headroom) : x ∈ rel := List.mem_of_mem_filter h

/-- No release is cut within the headroom (R123). -/
theorem keptReleases_of_length_le {rel : List ActiveRoute} {headroom : Nat} (h : rel.length ≤ headroom) :
    keptReleases rel headroom = rel := by
  simp [keptReleases, Nat.sub_eq_zero_of_le h]

/-- A released route in the terms of the statements: it goes from its gain to 0 under kr (R122). -/
theorem ActiveRoute.released_eq (e : ActiveRoute) (kr : Nat) :
    e.released kr =
      { e with target := 0, k := kr, step := (-e.gain).tdiv (2 ^ kr), remaining := 2 ^ kr, releasing := true } := by
  simp [ActiveRoute.released]

/-! ## The take of an empty bank (R117) -/

section EmptyBank

variable {v : Scene} (h : v.pendingBank = [])
include h

theorem Scene.enteredRoutes_of_empty : v.enteredRoutes = [] := by simp [Scene.enteredRoutes, h]

/-- With no pending entry every route of the active bank is an old one (R122). -/
theorem Scene.releasedRoutes_of_empty (kr : Nat) : v.releasedRoutes kr = v.active.map fun e => e.released kr := by
  simp [Scene.releasedRoutes, holdsKey, h]

/-- A take of the empty bank joins the releases that it keeps, and nothing else (R121 to R124). -/
theorem Scene.taken_active_of_empty (house : Rate) (kr : Nat) :
    (v.taken house kr).active =
      (keptReleases (v.active.map fun e => e.released kr) (routeCapacity house)).foldr insertRoute [] := by
  simp [Scene.taken, h, Scene.enteredRoutes_of_empty h, Scene.releasedRoutes_of_empty h]

/-- Every route after the take of an empty bank is a route of the active bank, released. -/
theorem Scene.eq_released_of_mem_taken {house : Rate} {kr : Nat} {e : ActiveRoute}
    (he : e ∈ (v.taken house kr).active) : ∃ d ∈ v.active, d.released kr = e := by
  rw [Scene.taken_active_of_empty h] at he
  obtain kept | none := mem_foldr_insertRoute he
  · exact List.mem_map.mp (mem_of_mem_keptReleases kept)
  · exact absurd none List.not_mem_nil

/-- The take of an empty bank releases every route of an active bank in order, each in its place. -/
theorem Scene.taken_active_of_empty_of_ordered {house : Rate} (order : v.active.Pairwise fun d e => d.key < e.key)
    (fits : v.active.length ≤ routeCapacity house) (kr : Nat) :
    (v.taken house kr).active = v.active.map fun e => e.released kr := by
  have releasedOrder : (v.active.map fun e => e.released kr).Pairwise fun d e => d.key < e.key :=
    List.pairwise_map.mpr order
  rw [Scene.taken_active_of_empty h, keptReleases_of_length_le (by simpa using fits),
    foldr_insertRoute_nil releasedOrder]

end EmptyBank

/-- Settles O36: the commands act by the pending state, and with no pending entry the take's releases are the whole
active bank in its order, within its capacity. -/
theorem scnSeal : Obligations.ScnSeal := by
  refine ⟨fun s addr kr hs => ⟨fun h => exec_scnseal_busy hs h kr, fun h => exec_scnseal_building hs h kr⟩,
    fun s addr k p hs h => ?_, fun v house kr h => ⟨fun e he => ?_, fun order fits => ?_⟩⟩
  · have notBuilding : s.scene.state ≠ .building := by simp [h]
    exact ⟨exec_routeset_busy hs notBuilding, exec_routedrop_busy hs notBuilding⟩
  · obtain ⟨d, -, rfl⟩ := Scene.eq_released_of_mem_taken h he
    exact ⟨rfl, rfl, rfl⟩
  · simp only [Scene.taken_active_of_empty_of_ordered h order fits, ActiveRoute.released_eq]

/-- Settles O37: the command acts by the pending state, and no frame is taken while another command of the role is in
execution. -/
theorem scnDiscard : Obligations.ScnDiscard := fun _ _ =>
  ⟨fun hs => ⟨exec_scndiscard_free hs, exec_scndiscard_held hs⟩, fun hx hr => exec_executing rfl hr hx⟩

end Sys2Proof.Machine
end

section
/-!
SUPPORT. IDENT (R175): the way of a command that every role may issue in both start-up phases, and the answer's bytes.
-/

namespace Sys2Proof.Machine

open Sys2Proof

/-! ## The commands of both start-up phases (R12, R170) -/

/-- The interface passes the commands 01h to 03h of every role, in STARTING as in RUNNING (R12, R170). -/
theorem judge_bothPhases {c : Nat} (hc : 1 ≤ c ∧ c ≤ 3) (r : Role) {p : List Byte} (hp : p.length ≤ 250)
    (starting : Bool) : judge c r p starting = none := by
  have known : knownCode c = true := by simp [knownCode, hc]
  have may : mayIssue c r = true := by cases r <;> simp [mayIssue, hc]
  have notFeed : isFeedCode c = false := by
    simp only [isFeedCode, Bool.and_eq_false_iff, decide_eq_false_iff_not]
    omega
  have field : judgeFeedField c r p = none := by simp [judgeFeedField, notFeed]
  simp [judge, Nat.not_lt.mpr hp, known, may, field, hc]

/-! ## The bytes of the answer (R175) -/

theorem be_bit (b : Bool) : be 1 (bit b) = [if b then 1 else 0] := by cases b <;> rfl

theorem Phase.code_byte (v : Phase) : be 1 v.code = [if v = .running then 1 else 0] := by cases v <;> rfl

/-- The record of IDENT byte by byte. -/
theorem State.identBytes_eq (s : State) (r : Role) :
    s.identBytes r =
      [0x3C, 0x61, 0x64, 0x96, 0x01, if s.bus.strap then 1 else 0, BitVec.ofNat 8 r.code,
        if s.clock.phase = .running then 1 else 0] := by
  rw [State.identBytes, be_bit, be_one, Phase.code_byte]
  rfl

/-- The record depends on the strap and the phase alone, which a frame leaves as they were. -/
theorem identBytes_handedOver (r : Role) (code : Byte) (s : State) :
    (handedOver r code s).identBytes r = s.identBytes r := by
  simp [State.identBytes, Bus.handedOver]

/-! ## IDENT by its payload (R175) -/

section Heard

variable {s : State} {addr : BitVec 7} {r : Role} (hs : s.Hears addr r)
include hs

/-- IDENT of a role that the part hears reaches the length check in both phases (R170, R190). -/
theorem exec_ident_heard {p : List Byte} (hp : p.length ≤ 250) :
    exec (.ident addr p) s = .next (lengthChecked p.isEmpty r (ident r) (handedOver r 0x01 s)) :=
  congrArg Host.Outcome.next (takeFrame_handed _ hs (judge_bothPhases (by decide) r hp _))

/-- IDENT with its empty payload is completed at once with its record (R175). -/
theorem exec_ident_empty : exec (.ident addr []) s = .next ((caughtUp s).answered r 0x01 .ok (s.identBytes r)) := by
  rw [exec_ident_heard hs (by simp), List.isEmpty_nil, lengthChecked_true, ident, identBytes_handedOver,
    complete_handedOver]

/-- IDENT with any payload is refused for its format (R175, R190). -/
theorem exec_ident_nonempty {p : List Byte} (hp : p.length ≤ 250) (h : p ≠ []) :
    exec (.ident addr p) s = .next ((caughtUp s).answered r 0x01 .format []) := by
  rw [exec_ident_heard hs hp, List.isEmpty_eq_false_iff.mpr h, lengthChecked_false, complete_handedOver]

end Heard

/-- Settles O47: IDENT is handed over in both phases, and its payload decides between the record and FORMAT. (The name
`ident` is the act of the command itself.) -/
theorem ident_holds : Obligations.Ident := by
  intro s addr r p hs hp
  refine ⟨?_, exec_ident_nonempty hs hp⟩
  rintro rfl
  rw [exec_ident_empty hs, State.identBytes_eq]

end Sys2Proof.Machine
end

section
/-!
SUPPORT. NOTEFETCH (R183): the records of a queue under a notice, the notice unit under the end of a transition, and the
command by its payload and the sender's queue.
-/

namespace Sys2Proof.Machine

open Sys2Proof

/-! ## A queue under a notice (R181) -/

theorem Kind.code_injective {k m : Kind} (h : k.code = m.code) : k = m := by
  have inverse (j : Kind) : Kind.ofNat (j.code - 1) = j := by cases j <;> rfl
  rw [← inverse k, h, inverse m]

/-- The records of a queue stand in strict order of their kinds, so that it holds at most one of a kind (R181). -/
def Rising (q : List Notice) : Prop := q.Pairwise fun v w => v.kind.code < w.kind.code

theorem rising_cons {v : Notice} {q : List Notice} :
    Rising (v :: q) ↔ (∀ w ∈ q, v.kind.code < w.kind.code) ∧ Rising q :=
  List.pairwise_cons

/-- A notice brings no kind but its own into a queue. -/
theorem kind_of_mem_takeNotice {k : Kind} {detail : List Byte} {time : BitVec 32} {w : Notice} {q : List Notice}
    (h : w ∈ takeNotice k detail time q) : w.kind = k ∨ ∃ v ∈ q, w.kind = v.kind := by
  induction q with
  | nil =>
    obtain rfl := List.mem_singleton.mp h
    exact .inl rfl
  | cons v q ih =>
    rw [takeNotice] at h
    split at h
    next same =>
      rcases List.mem_cons.mp h with rfl | h
      · exact .inl same
      · exact .inr ⟨w, List.mem_cons_of_mem v h, rfl⟩
    split at h
    · rcases List.mem_cons.mp h with rfl | h
      · exact .inl rfl
      · exact .inr ⟨w, h, rfl⟩
    · rcases List.mem_cons.mp h with rfl | h
      · exact .inr ⟨w, List.mem_cons_self, rfl⟩
      · exact (ih h).imp_right fun ⟨u, hu, e⟩ => ⟨u, List.mem_cons_of_mem v hu, e⟩

/-- A notice enters a queue at its kind's place (R181). -/
theorem Rising.takeNotice {q : List Notice} (h : Rising q) (k : Kind) (detail : List Byte) (time : BitVec 32) :
    Rising (takeNotice k detail time q) := by
  induction q with
  | nil => exact List.pairwise_singleton ..
  | cons v q ih =>
    obtain ⟨first, rest⟩ := rising_cons.mp h
    rw [Machine.takeNotice]
    split
    · exact rising_cons.mpr ⟨first, rest⟩
    next other =>
    split
    next before =>
      refine rising_cons.mpr ⟨fun w hw => ?_, h⟩
      rcases List.mem_cons.mp hw with rfl | hw
      · exact before
      · exact before.trans (first w hw)
    next notBefore =>
      refine rising_cons.mpr ⟨fun w hw => ?_, ih rest⟩
      rcases kind_of_mem_takeNotice hw with e | ⟨u, hu, e⟩
      · have : v.kind.code ≠ k.code := fun same => other (Kind.code_injective same)
        rw [e]
        omega
      · exact e ▸ first u hu

/-- A notice whose kind comes before every record's begins a new record, with count 1 (R181). -/
theorem takeNotice_of_first {k : Kind} {q : List Notice} (h : ∀ w ∈ q, k.code < w.kind.code) (detail : List Byte)
    (time : BitVec 32) :
    takeNotice k detail time q = { kind := k, count := 1, detail := detail, time := time } :: q := by
  cases q with
  | nil => rfl
  | cons v q =>
    have before : k.code < v.kind.code := h v List.mem_cons_self
    have other : v.kind ≠ k := fun e => absurd before (e ▸ Nat.lt_irrefl _)
    rw [takeNotice, if_neg other, if_pos before]

/-! ## The notice unit under the end of a transition (R180, log 5) -/

/-- What every routed notice keeps, a raise keeps. -/
theorem raise_keeps {P : Notices → Prop} (hP : ∀ u k d t, P u → P (Notices.route u k d t)) {s : State}
    (h : P s.notices) (k : Kind) (d : List Byte) : P (raise k d s).notices := by
  rw [raise]
  split
  · exact h
  · exact hP _ _ _ _ h

section Keeps

variable {P : Notices → Prop} (hP : ∀ u k d t, P u → P (Notices.route u k d t)) {s : State} (h : P s.notices)
include hP h

theorem completeFeed_keeps (x : Side) (reason : Reason) : P (completeFeed x reason s).notices :=
  raise_keeps hP (s := (s.setFeed x _).onSel _) h _ _

theorem enterSilent_keeps (heard : Option Side) (cause : SilenceCause) : P (enterSilent heard cause s).notices :=
  raise_keeps hP (s := s.onSel _) h _ _

theorem finishOutgoing_keeps (x : Side) : P (finishOutgoing x s).notices := by
  rw [finishOutgoing]
  split
  · exact completeFeed_keeps hP h _ _
  · split
    · exact completeFeed_keeps hP h _ _
    · exact h
  · exact h

/-- The end of a transition reaches the notice unit through raised notices alone. -/
theorem endTransition_keeps : P (endTransition s).notices := by
  rw [endTransition]
  split
  case h_1 => exact h
  case h_2 x _ =>
    split
    · exact enterSilent_keeps hP (finishOutgoing_keeps hP (completeFeed_keeps hP h _ _) _) _ _
    · exact finishOutgoing_keeps hP h x
  case h_3 x _ =>
    split
    · exact enterSilent_keeps hP (completeFeed_keeps hP h _ _) _ _
    · exact completeFeed_keeps hP h x _
  case h_4 => exact h

theorem caughtUp_keeps : P (caughtUp s).notices := by
  rw [caughtUp]
  split
  · exact endTransition_keeps hP h
  · exact h

end Keeps

theorem Notices.route_routing (u : Notices) (k : Kind) (d : List Byte) (t : BitVec 32) :
    (u.route k d t).routing = u.routing := by
  rw [Notices.route]
  split <;> rfl

theorem caughtUp_routing (s : State) : (caughtUp s).notices.routing = s.notices.routing :=
  caughtUp_keeps (P := fun u => u.routing = s.notices.routing)
    (fun u k d t h => (u.route_routing k d t).trans h) rfl

/-- Every role's queue stands in the order of the kinds (R181). -/
def Notices.Rising (u : Notices) : Prop := ∀ r, Machine.Rising (u.queues.get r)

theorem Notices.Rising.route {u : Notices} (h : u.Rising) (k : Kind) (d : List Byte) (t : BitVec 32) :
    (u.route k d t).Rising := by
  rw [Notices.route]
  split
  next target _ =>
    intro r
    rw [Notices.enter, PerRole.get_set]
    split
    · exact (h target).takeNotice k d t
    · exact h r
  · exact h

theorem State.NoticesOk.rising {s : State} (h : s.NoticesOk) : s.notices.Rising := by
  obtain ⟨⟨q0, q1, q2, q3⟩, -⟩ := h
  intro r
  cases r
  · exact q0.1
  · exact q1.1
  · exact q2.1
  · exact q3.1

theorem State.NoticesOk.caughtUp_rising {s : State} (h : s.NoticesOk) : (caughtUp s).notices.Rising :=
  caughtUp_keeps (fun _ k d t hu => hu.route k d t) h.rising

/-! ## The first record removed (R182, R183) -/

section Fetched

variable {u : Notices} {r : Role} {v : Notice} {rest : List Notice} (h : u.queues.get r = v :: rest)
include h

theorem Notices.fetched_queue : (u.fetched r).queues.get r = rest := by
  rw [Notices.fetched, PerRole.get_set_self, h, List.tail_cons]

theorem Notices.fetched_line : (u.fetched r).alertLow.get r = !rest.isEmpty := by
  rw [Notices.fetched, PerRole.get_set_self, h, List.tail_cons]

end Fetched

/-- A record removed from one queue leaves the others and their lines (R183). -/
theorem Notices.fetched_other (u : Notices) {r q : Role} (h : q ≠ r) :
    (u.fetched r).queues.get q = u.queues.get q ∧ (u.fetched r).alertLow.get q = u.alertLow.get q := by
  simp [Notices.fetched, PerRole.get_set, h]

/-! ## NOTEFETCH by its payload and the sender's queue (R183) -/

section Heard

variable {s : State} {addr : BitVec 7} {r : Role} (hs : s.Hears addr r)
include hs

/-- NOTEFETCH of a role that the part hears reaches the length check in both phases (R170, R190). -/
theorem exec_notefetch_heard {p : List Byte} (hp : p.length ≤ 250) :
    exec (.notefetch addr p) s = .next (lengthChecked p.isEmpty r (notefetch r) (handedOver r 0x02 s)) :=
  congrArg Host.Outcome.next (takeFrame_handed _ hs (judge_bothPhases (by decide) r hp _))

/-- NOTEFETCH with any payload is refused for its format (R183, R190). -/
theorem exec_notefetch_nonempty {p : List Byte} (hp : p.length ≤ 250) (h : p ≠ []) :
    exec (.notefetch addr p) s = .next ((caughtUp s).answered r 0x02 .format []) := by
  rw [exec_notefetch_heard hs hp, List.isEmpty_eq_false_iff.mpr h, lengthChecked_false, complete_handedOver]

/-- NOTEFETCH on an empty queue is answered with no data (R183). -/
theorem exec_notefetch_none (h : (caughtUp s).notices.queues.get r = []) :
    exec (.notefetch addr []) s = .next ((caughtUp s).answered r 0x02 .ok []) := by
  rw [exec_notefetch_heard hs (by simp), List.isEmpty_nil, lengthChecked_true, notefetch, handedOver_notices, h]
  exact congrArg Host.Outcome.next (complete_handedOver ..)

/-- NOTEFETCH takes the first record of the sender's queue and answers with it and the number left (R183). -/
theorem exec_notefetch_first {v : Notice} {rest : List Notice}
    (h : (caughtUp s).notices.queues.get r = v :: rest) :
    exec (.notefetch addr []) s = .next
      ({ caughtUp s with notices := (caughtUp s).notices.fetched r }.answered r 0x02 .ok
        (v.bytes ++ be 1 rest.length)) := by
  rw [exec_notefetch_heard hs (by simp), List.isEmpty_nil, lengthChecked_true, notefetch, handedOver_notices, h]
  exact congrArg Host.Outcome.next (complete_of_bus rfl ..)

end Heard

/-- The answer byte by byte. -/
theorem Notice.bytes_left (v : Notice) (left : Nat) :
    v.bytes ++ be 1 left =
      [BitVec.ofNat 8 v.kind.code, BitVec.ofNat 8 v.count] ++ v.detail ++ be 4 v.time.toNat ++
        [BitVec.ofNat 8 left] := by
  simp [Notice.bytes, be_one]

/-- Settles O46: the queues are in order after a transition's end too, so the first record is the one of highest
priority, and what is left has no record of its kind. -/
theorem noteFetch : Obligations.NoteFetch := by
  intro s addr r p hs ok hp
  refine ⟨exec_notefetch_nonempty hs hp, exec_notefetch_none hs, fun v rest h => ?_⟩
  have highest : ∀ w ∈ rest, v.kind.code < w.kind.code := (rising_cons.mp (h ▸ ok.caughtUp_rising r)).1
  refine ⟨(caughtUp s).notices.fetched r, ?_, caughtUp_routing s, Notices.fetched_queue h, Notices.fetched_line h,
    highest, fun q hq => Notices.fetched_other _ hq, fun detail time => ?_⟩
  · rw [exec_notefetch_first hs h, Notice.bytes_left]
  · rw [takeNotice_of_first highest]
    exact List.mem_cons_self

end Sys2Proof.Machine
end

section
/-!
SUPPORT. What a step can do, said once: a property that survives each of the moves listed here survives every event,
every command and every step. The invariants are then one case for each move.
-/

namespace Sys2Proof.Machine

open Sys2Proof

/-! ## The moves of the house clock unit (R1 to R6, R11, R12) -/

/-- What an event does to the house clock unit: every change but those of CLOCKSET and the resets. -/
inductive Clock.Moves (c : Clock) : Clock → Prop where
  | restarted : c.Moves c.restarted
  | counted (h : c.divCount + 1 < 4 * (c.loadedN + 1)) : c.Moves { c with divCount := c.divCount + 1 }
  | sampled : c.Moves c.sampled
  | shown : c.Moves { c with wclkOut := c.wclkOut + 1 }
  | edgeInHoldover (held : Bool) (h : c.state = .holdover) : c.Moves (c.edgeInHoldover held)
  | edgeInFollowing : c.Moves c.edgeInFollowing
  | measured (h : c.lossMeasure + 1 < Config.lossPeriods) : c.Moves { c with lossMeasure := c.lossMeasure + 1 }
  | measureFull : c.Moves { c with lossMeasure := 0 }
  | lost (h : c.state = .following) : c.Moves { c with state := .holdover, watch := .idle, good := 0 }
  | lossCondition (h : c.state = .holdover) : c.Moves c.lossCondition
  | periodGood (h : c.state = .holdover) (full : c.watch.full = true) : c.Moves c.periodGood
  | returned (h : c.returnDue = true) : c.Moves c.returned
  | scrubbed (h : c.scrubPage < 1024) : c.Moves { c with scrubPage := c.scrubPage + 1 }
  | started (h : 1024 ≤ c.scrubPage) : c.Moves { c with phase := .running }

@[simp] theorem Clock.lossCondition_rateClass (c : Clock) : c.lossCondition.rateClass = c.rateClass := by
  unfold Clock.lossCondition
  split <;> rfl

/-- No event changes the house rate class (R10). -/
theorem Clock.Moves.rateClass {c d : Clock} (h : c.Moves d) : d.rateClass = c.rateClass := by
  cases h with
  | lossCondition => exact c.lossCondition_rateClass
  | _ => rfl

/-! ## The moves of events -/

/-- The fields that no invariant speaks of, blanked. -/
def State.seen (s : State) : State :=
  { s with
    resetLine := false, blockDue := false, pagesA := 0, pagesB := 0, pagesD := 0, groups := 0, gcMute := false
    muteLast := false, muteAccepted := false, mutePin := false, mclkStopped := false, slots := []
    bus := busReset false, freeCount := 0 }

theorem State.clock_of_seen {s t : State} (h : t.seen = s.seen) : t.clock = s.clock := by
  have k := congrArg State.clock h
  exact k

theorem State.mem_of_seen {s t : State} (h : t.seen = s.seen) : t.mem = s.mem := by
  have k := congrArg State.mem h
  exact k

theorem State.outs_of_seen {s t : State} (h : t.seen = s.seen) : t.outs = s.outs := by
  have k := congrArg State.outs h
  exact k

theorem State.cues_of_seen {s t : State} (h : t.seen = s.seen) : t.cues = s.cues := by
  have k := congrArg State.cues h
  exact k

theorem State.scene_of_seen {s t : State} (h : t.seen = s.seen) : t.scene = s.scene := by
  have k := congrArg State.scene h
  exact k

theorem State.feedA_of_seen {s t : State} (h : t.seen = s.seen) : t.feedA = s.feedA := by
  have k := congrArg State.feedA h
  exact k

theorem State.feedB_of_seen {s t : State} (h : t.seen = s.seen) : t.feedB = s.feedB := by
  have k := congrArg State.feedB h
  exact k

theorem State.sel_of_seen {s t : State} (h : t.seen = s.seen) : t.sel = s.sel := by
  have k := congrArg State.sel h
  exact k

theorem State.notices_of_seen {s t : State} (h : t.seen = s.seen) : t.notices = s.notices := by
  have k := congrArg State.notices h
  exact k

/-- A feed with its receivers, pace state and lane watch blanked: what no invariant speaks of. -/
def Feed.core (f : Feed) : Feed :=
  { f with rx0 := .hunting, rx1 := .hunting, pace := paceIdle, watch := watchReset }

@[simp] theorem Feed.setRx_core (f : Feed) (l : Lane) (r : Receiver) : (f.setRx l r).core = f.core := by
  cases l <;> rfl

@[simp] theorem Feed.paceBegun_core (f : Feed) (l : Lane) : (f.paceBegun l).core = f.core := by
  unfold Feed.paceBegun
  split <;> rfl

@[simp] theorem Feed.paceEnded_core (f : Feed) (l : Lane) : (f.paceEnded l).core = f.core := by
  unfold Feed.paceEnded
  split
  · split
    · rfl
    · split <;> rfl
    · split <;> rfl
  · rfl

@[simp] theorem Feed.paceSample_core (f : Feed) (starting : Bool) : (f.paceSample starting).core = f.core := by
  unfold Feed.paceSample
  split
  · rfl
  · split
    · rfl
    · split
      · rfl
      · split <;> rfl
    · split
      · rfl
      · split
        · rfl
        · split
          · rfl
          · split <;> rfl

@[simp] theorem Feed.blockFell_core (f : Feed) : f.blockFell.core = f.core := rfl

/-- The banks and the routes at rest: what holds of the scene store (R109 to R111). -/
abbrev State.SceneOk (s : State) : Prop := s.BanksOk ∧ s.RoutesOk

/-- A property that every move of an event keeps. A move of a store that has an invariant of its own (sample memory,
outputs, cues, scene store) is any that keeps that invariant. -/
structure KeptByEvents (P : State → Prop) : Prop where
  unseen {s t : State} : t.seen = s.seen → P s → P t
  clock {s : State} {c : Clock} : s.clock.Moves c → P s → P { s with clock := c }
  mem {s : State} {m : Memory} : (s.MemOk → State.MemOk { s with mem := m }) → P s → P { s with mem := m }
  outs {s : State} {os : List OutRec} : (s.GainsOk → State.GainsOk { s with outs := os }) → P s → P { s with outs := os }
  cues {s : State} {cs : List Cue} : (s.CuesOk → State.CuesOk { s with cues := cs }) → P s → P { s with cues := cs }
  scene {s : State} {v : Scene} : (s.SceneOk → State.SceneOk { s with scene := v }) → P s → P { s with scene := v }
  raise {s : State} (k : Kind) (d : List Byte) : P s → P (raise k d s)
  units {s : State} {x : Side} {f : Feed} : f.core = (s.feed x).core → P s → P (s.setFeed x f)
  awaiting {s : State} (l : List Awaiting) : P s → P { s with sel := { s.sel with awaiting := l } }
  caughtUp {s : State} : P s → P (caughtUp s)
  loss {s : State} (x : Side) : P s → P (lossTaken x s)
  stopOnAir {s : State} {x : Side} (handover : Bool) :
    (s.feed x).st = .running → (s.feed x).role = .leader ∨ (s.feed x).role = .outgoing → P s →
      P (stopOnAir x handover s).2
  ended {s : State} {x : Side} (reason : Reason) :
    (s.feed x).st = .seeking ∨ (s.feed x).st = .primed ∨
        (s.feed x).st = .running ∧ ¬ ((s.feed x).role = .leader ∨ (s.feed x).role = .outgoing) →
      P s → P (completeFeed x reason s)
  onairSteps {s : State} (feed : Nat) : P s → P (onairSteps feed s).2
  underrun {s : State} (x : Side) : P s → P (s.onFeed x Feed.clearUnderrun)
  servo {s : State} : P s → P (servoStep s)
  alignment {s : State} : P s → P (judgeAlignment s)
  primed {s : State} : P s → P (takePrimed s)

/-- A fold of steps that keep a property keeps it. -/
theorem foldl_keeps {α : Type} {P : State → Prop} {f : State → α → State} (h : ∀ s a, P s → P (f s a)) (l : List α)
    {s : State} (hs : P s) : P (l.foldl f s) := by
  induction l generalizing s with
  | nil => exact hs
  | cons a l ih => exact ih (h s a hs)

theorem raiseIf_eq (c : Bool) (k : Kind) (d : List Byte) (s : State) :
    raiseIf c k d s = if c then raise k d s else s := by
  cases c <;> rfl

namespace KeptByEvents

variable {P : State → Prop} (K : KeptByEvents P) {s : State} (h : P s)
include K h

theorem raiseIf (c : Bool) (k : Kind) (d : List Byte) : P (raiseIf c k d s) := by
  rw [raiseIf_eq]
  split
  · exact K.raise k d h
  · exact h

theorem complete (r : Role) (res : ResultCode) (d : List Byte) : P (complete r res d s) := K.unseen (by rfl) h

theorem onUnits {x : Side} {g : Feed → Feed} (hg : (g (s.feed x)).core = (s.feed x).core) : P (s.onFeed x g) :=
  K.units hg h

/-! ## Windows, watches and stale blocks (R15, R27 to R31) -/

theorem paceExpiry (x : Side) : P (paceExpiry x s) := by
  unfold Machine.paceExpiry
  split
  · split
    · exact K.raise _ _ (K.onUnits h rfl)
    · exact K.onUnits h rfl
  · exact h

theorem burstExpiry (x : Side) : P (burstExpiry x s) := by
  unfold Machine.burstExpiry
  split
  · split
    · exact K.raise _ _ (K.onUnits h rfl)
    · exact K.onUnits h rfl
  · exact h

theorem expiries : P (expiries s) :=
  K.burstExpiry (K.burstExpiry (K.paceExpiry (K.paceExpiry h .a) .b) .a) .b

theorem laneAbandon (x : Side) (l : Lane) : P (laneAbandon x l s) := by
  unfold Machine.laneAbandon
  split
  · exact K.onUnits h (by simp)
  · exact h

theorem abandons : P (abandons s) :=
  K.laneAbandon (K.laneAbandon (K.laneAbandon (K.laneAbandon h .a .l0) .a .l1) .b .l0) .b .l1

theorem closePeriod (x : Side) : P (closePeriod x s) := by
  have closed := K.units (x := x) (s := s)
    (f := { s.feed x with watch := (s.feed x).watch.closed (s.feed x).verdict (s.feed x).rs.i }) rfl h
  unfold Machine.closePeriod
  dsimp only
  split
  · exact K.loss x (K.raise _ _ closed)
  · split
    · exact K.raise _ _ closed
    · exact closed

theorem watchClose (x : Side) : P (watchClose x s) := by
  unfold Machine.watchClose
  split
  · exact K.closePeriod (K.caughtUp h) x
  · exact h

/-! ## The house clock's own rows (R4 to R6, R12) -/

theorem returnGood : P (returnGood s) := by
  unfold Machine.returnGood
  split
  next c =>
    simp only [Bool.and_eq_true, beq_iff_eq] at c
    exact K.clock (.periodGood c.1.2 c.2) h
  · exact h

theorem startupEnd : P (startupEnd s) := by
  unfold Machine.startupEnd
  split
  next c =>
    simp only [Bool.and_eq_true, decide_eq_true_eq] at c
    exact K.clock (.started c.2) h
  · exact h

theorem wordClockLoss : P (wordClockLoss s) := by
  unfold Machine.wordClockLoss
  split
  · exact h
  · split
    next c => exact K.raise _ _ (K.clock (.lost c) h)
    · exact h

theorem lossCondition : P (lossCondition s) := by
  unfold Machine.lossCondition
  split
  · exact h
  · split
    next c => exact K.clock (.lossCondition c) h
    · exact h

theorem clockReturn : P (clockReturn s) := by
  unfold Machine.clockReturn
  split
  next c => exact K.raise _ _ (K.clock (.returned c) h)
  · exact h

theorem scrubStep : P (scrubStep s) := by
  unfold Machine.scrubStep
  split
  next c =>
    have counted : P { s with clock := { s.clock with scrubPage := s.clock.scrubPage + 1 } } := K.clock (.scrubbed c) h
    exact K.mem (fun ok => Memory.scrub_wf _ ok) counted
  · exact h

/-! ## The interface -/

theorem flushComplete : P (flushComplete s) := by
  unfold Machine.flushComplete
  split
  · exact h
  · split
    · exact K.unseen (by rfl) h
    · exact h

theorem transitionEnd : P (transitionEnd s) := by
  unfold Machine.transitionEnd
  split
  · exact h
  · exact K.caughtUp h

/-! ## Awaiting commands (R100, R101) -/

theorem stopTaken (r : Role) (x : Side) (handover : Bool) : P (stopTaken r x handover s) := by
  unfold Machine.stopTaken
  split
  next run =>
    split
    next leads => exact K.complete (K.stopOnAir handover run leads h) ..
    next apart => exact K.complete (K.ended .stopped (.inr (.inr ⟨run, apart⟩)) h) ..
  · exact K.complete h ..

theorem onairTaken (feed : Byte) : P (onairTaken feed s) := K.complete (K.onairSteps feed.toNat h) ..

theorem orderTaken (o : AwaitedOrder) : P (orderTaken o s) := by
  cases o with
  | stop r x handover => exact K.stopTaken h r x handover
  | onair feed => exact K.onairTaken h feed

theorem turnTake : P (turnTake s) := by
  unfold Machine.turnTake
  split
  next o _ => exact K.orderTaken (K.awaiting _ (K.caughtUp h)) o
  · exact h

theorem stopTake (r : Role) : P (stopTake r s) := by
  unfold Machine.stopTake
  split
  · exact h
  · split
    · split
      · exact K.turnTake h
      · exact h
    · exact h

theorem onairTake : P (onairTake s) := by
  unfold Machine.onairTake
  split
  · exact h
  · split
    · exact K.turnTake h
    · exact h

theorem dueOrders : P (dueOrders s) := foldl_keeps (fun _ _ hu => K.turnTake hu) _ h

end KeptByEvents
end Sys2Proof.Machine
end

section
/-!
SUPPORT. The scene store under each of its moves (R109 to R131): the banks stay in key order, within their capacities
and within their fields' ranges, and a route at rest stands at its target.
-/

namespace Sys2Proof.Machine

open Sys2Proof

/-! ## What is cut (R123) -/

/-- The order in which releases are cut: by magnitude of the start gain, then by key (R123). -/
def Quieter (d e : ActiveRoute) : Prop :=
  d.gain.natAbs < e.gain.natAbs ∨ d.gain.natAbs = e.gain.natAbs ∧ d.key < e.key

theorem orderedInsert_quieter {e : ActiveRoute} {l : List ActiveRoute} (hl : l.Pairwise Quieter)
    (first : ∀ d ∈ l, e.key < d.key) :
    (l.orderedInsert (fun a b => a.gain.natAbs ≤ b.gain.natAbs) e).Pairwise Quieter := by
  induction l with
  | nil => simp
  | cons d l ih =>
    have hd := List.pairwise_cons.mp hl
    rw [List.orderedInsert]
    split
    next le =>
      refine List.pairwise_cons.mpr ⟨fun c hc => ?_, hl⟩
      have key := first c hc
      obtain rfl | mem := List.mem_cons.mp hc
      · unfold Quieter; omega
      · have := hd.1 c mem
        unfold Quieter at this ⊢; omega
    next gt =>
      refine List.pairwise_cons.mpr ⟨fun c hc => ?_, ih hd.2 fun c hc => first c (List.mem_cons_of_mem _ hc)⟩
      obtain rfl | mem := List.mem_cons.mp (List.perm_orderedInsert _ _ _ |>.mem_iff.mp hc)
      · unfold Quieter; omega
      · exact hd.1 c mem

/-- The releases stand in the order in which they are cut (R123). -/
theorem quietestFirst_pairwise {rel : List ActiveRoute} (h : rel.Pairwise fun d e => d.key < e.key) :
    (quietestFirst rel).Pairwise Quieter := by
  unfold quietestFirst
  induction rel with
  | nil => simp
  | cons e rel ih =>
    have he := List.pairwise_cons.mp h
    exact orderedInsert_quieter (ih he.2) fun d hd => he.1 d ((List.perm_insertionSort _ rel).mem_iff.mp hd)

theorem quietestFirst_perm (rel : List ActiveRoute) : (quietestFirst rel).Perm rel := List.perm_insertionSort _ rel

theorem routeKeys_nodup {l : List ActiveRoute} (h : l.Pairwise fun d e => d.key < e.key) :
    (l.map ActiveRoute.key).Nodup := by
  rw [List.Nodup, List.pairwise_map]
  exact h.imp Nat.ne_of_lt

/-- Where keys are distinct, dropping the keys of the first `n` entries leaves the others. -/
theorem filter_keys_take {q : List ActiveRoute} (h : (q.map ActiveRoute.key).Nodup) (n : Nat) :
    (q.filter fun e => !((q.take n).map ActiveRoute.key).contains e.key) = q.drop n := by
  have apart : ∀ d ∈ q.take n, ∀ e ∈ q.drop n, d.key ≠ e.key := by
    intro d hd e he same
    have split := List.map_append (f := ActiveRoute.key) (l₁ := q.take n) (l₂ := q.drop n)
    rw [List.take_append_drop] at split
    rw [split] at h
    have he' := List.mem_map_of_mem (f := ActiveRoute.key) he
    rw [← same] at he'
    exact List.disjoint_of_nodup_append h (List.mem_map_of_mem hd) he'
  have split := List.filter_append (p := fun e : ActiveRoute => !((q.take n).map ActiveRoute.key).contains e.key)
    (q.take n) (q.drop n)
  rw [List.take_append_drop] at split
  rw [split, List.filter_eq_nil_iff.mpr, List.filter_eq_self.mpr, List.nil_append]
  · intro e he
    simp only [Bool.not_eq_true', List.contains_eq_mem, decide_eq_false_iff_not, List.mem_map, not_exists, not_and]
    exact fun d hd => apart d hd e he
  · intro e he
    simp only [Bool.not_eq_true', List.contains_eq_mem, decide_eq_false_iff_not, not_not]
    exact List.mem_map_of_mem he

/-- The releases that are kept are all but the quietest (R123). -/
theorem keptReleases_perm {rel : List ActiveRoute} (h : rel.Pairwise fun d e => d.key < e.key) (room : Nat) :
    (keptReleases rel room).Perm ((quietestFirst rel).drop (rel.length - room)) := by
  have nodup : ((quietestFirst rel).map ActiveRoute.key).Nodup :=
    ((quietestFirst_perm rel).map _).nodup_iff.mpr (routeKeys_nodup h)
  rw [← filter_keys_take nodup]
  exact (quietestFirst_perm rel).symm.filter _

theorem keptReleases_length {rel : List ActiveRoute} (h : rel.Pairwise fun d e => d.key < e.key) (room : Nat) :
    (keptReleases rel room).length = min rel.length room := by
  rw [(keptReleases_perm h room).length_eq, List.length_drop, (quietestFirst_perm rel).length_eq]
  omega

theorem keptReleases_pairwise {rel : List ActiveRoute} (h : rel.Pairwise fun d e => d.key < e.key) (room : Nat) :
    (keptReleases rel room).Pairwise fun d e => d.key < e.key := h.filter _

/-! ## The take (R121 to R124) -/

theorem foldr_insertRoute_pairwise {rel bank : List ActiveRoute} (h : bank.Pairwise fun d e => d.key < e.key) :
    (rel.foldr insertRoute bank).Pairwise fun d e => d.key < e.key := by
  induction rel with
  | nil => exact h
  | cons e rel ih => exact insertRoute_pairwise ih

/-- Routes of new and distinct keys all enter a bank. -/
theorem foldr_insertRoute_perm {rel bank : List ActiveRoute} (distinct : (rel.map ActiveRoute.key).Nodup)
    (new : ∀ e ∈ rel, ∀ d ∈ bank, d.key ≠ e.key) : (rel.foldr insertRoute bank).Perm (rel ++ bank) := by
  induction rel with
  | nil => exact .refl _
  | cons e rel ih =>
    rw [List.map_cons, List.nodup_cons] at distinct
    refine (insertRoute_new fun d hd => ?_).trans
      ((ih distinct.2 fun c hc => new c (List.mem_cons_of_mem _ hc)).cons e)
    obtain hd | hd := mem_foldr_insertRoute hd
    · exact fun same => distinct.1 (same ▸ List.mem_map_of_mem hd)
    · exact new e List.mem_cons_self d hd

theorem holdsKey_iff {bank : List RouteEntry} {key : Nat} : holdsKey bank key = true ↔ ∃ p ∈ bank, p.key = key := by
  simp [holdsKey]

@[simp] theorem RouteEntry.entered_key (e : RouteEntry) (g : Int) : (e.entered g).key = e.key := rfl

@[simp] theorem ActiveRoute.released_key (e : ActiveRoute) (kr : Nat) : (e.released kr).key = e.key := rfl

section Taken

variable {v : Scene} (pending : v.pendingBank.Pairwise fun d e => d.key < e.key)
  (active : v.active.Pairwise fun d e => d.key < e.key) (house : Rate) (kr : Nat)

include active in
theorem Scene.releasedRoutes_pairwise : (v.releasedRoutes kr).Pairwise fun d e => d.key < e.key := by
  rw [Scene.releasedRoutes, List.pairwise_map]
  exact active.filter _

include active in
/-- The active bank of a take: the releases that are kept and the entered routes, each once (R124). -/
theorem Scene.taken_active_perm :
    (v.taken house kr).active.Perm
      (keptReleases (v.releasedRoutes kr) (routeCapacity house - v.pendingBank.length) ++ v.enteredRoutes) := by
  have rel := Scene.releasedRoutes_pairwise active kr
  refine foldr_insertRoute_perm (routeKeys_nodup (keptReleases_pairwise rel _)) fun e he d hd same => ?_
  obtain ⟨p, hp, rfl⟩ := List.mem_map.mp hd
  obtain ⟨a, ha, rfl⟩ := List.mem_map.mp (mem_of_mem_keptReleases he)
  have apart := (List.mem_filter.mp ha).2
  rw [Bool.not_eq_true', ← Bool.not_eq_true, holdsKey_iff] at apart
  exact apart ⟨p, hp, same⟩

include pending in
theorem Scene.taken_active_pairwise : (v.taken house kr).active.Pairwise fun d e => d.key < e.key := by
  refine foldr_insertRoute_pairwise ?_
  rw [Scene.enteredRoutes, List.pairwise_map]
  exact pending

include active in
theorem Scene.taken_active_length :
    (v.taken house kr).active.length =
      v.pendingBank.length + min (v.releasedRoutes kr).length (routeCapacity house - v.pendingBank.length) := by
  rw [(Scene.taken_active_perm active house kr).length_eq, List.length_append,
    keptReleases_length (Scene.releasedRoutes_pairwise active kr), Scene.enteredRoutes, List.length_map]
  omega

/-- A route after a take is an entered one or a released one (R121, R122). -/
theorem Scene.mem_taken_active {e : ActiveRoute} (he : e ∈ (v.taken house kr).active) :
    (∃ p ∈ v.pendingBank, e = p.entered (gainAt v.active p.key)) ∨ ∃ a ∈ v.active, e = a.released kr := by
  obtain h | h := mem_foldr_insertRoute he
  · obtain ⟨a, ha, rfl⟩ := List.mem_map.mp (mem_of_mem_keptReleases h)
    exact .inr ⟨a, List.mem_of_mem_filter ha, rfl⟩
  · obtain ⟨p, hp, rfl⟩ := List.mem_map.mp h
    exact .inl ⟨p, hp, rfl⟩

include active in
/-- The routes after a take that are not releasing are the entered ones (R121, R122). -/
theorem Scene.taken_held_length :
    ((v.taken house kr).active.filter fun e => !e.releasing).length = v.pendingBank.length := by
  rw [((Scene.taken_active_perm active house kr).filter _).length_eq, List.filter_append,
    List.filter_eq_nil_iff.mpr, List.filter_eq_self.mpr, List.nil_append, Scene.enteredRoutes, List.length_map]
  · intro e he
    obtain ⟨p, -, rfl⟩ := List.mem_map.mp he
    rfl
  · intro e he
    obtain ⟨a, -, rfl⟩ := List.mem_map.mp (mem_of_mem_keptReleases he)
    simp [ActiveRoute.released]

end Taken

theorem pendingLimit_le (house : Rate) : pendingLimit house ≤ routeCapacity house := by cases house <;> decide

/-- The take of a sealed bank keeps the banks and the routes in order (R110, R124). -/
theorem State.SceneOk.taken {s : State} (h : s.SceneOk) {kr : Nat} (hs : s.scene.state = .sealed kr) :
    State.SceneOk { s with scene := s.scene.taken s.clock.rateClass kr } := by
  obtain ⟨⟨⟨pOrder, pLen, -, pFields, pKr⟩, aOrder, -, -, aFields⟩, -⟩ := h
  refine ⟨⟨⟨List.Pairwise.nil, Nat.zero_le _, fun _ => rfl, by simp [Scene.taken], by simp [Scene.taken]⟩,
    Scene.taken_active_pairwise pOrder _ _, ?_, ?_, fun e he => ?_⟩, fun e he => ?_⟩
  · show (s.scene.taken s.clock.rateClass kr).active.length ≤ _
    rw [Scene.taken_active_length aOrder]
    have := pendingLimit_le s.clock.rateClass
    dsimp only
    omega
  · exact (Scene.taken_held_length aOrder _ _).trans_le pLen
  · obtain ⟨p, hp, rfl⟩ | ⟨a, ha, rfl⟩ := Scene.mem_taken_active _ _ he
    · exact pFields p hp
    · obtain ⟨hi, ho, -⟩ := aFields a ha
      exact ⟨hi, ho, show (-8388608 : Int) ≤ 0 by decide, show (0 : Int) ≤ 8388607 by decide, pKr kr hs⟩
  · obtain ⟨p, -, rfl⟩ | ⟨a, -, rfl⟩ := Scene.mem_taken_active _ _ he
    · simp [RouteEntry.entered]
    · simp [ActiveRoute.released]

/-! ## The active bank under ramps and releases (R125, R126) -/

/-- A change of the routes that keeps their keys, ranges and release, and leaves those at rest at their targets. -/
def ActiveRoute.Ramps (d e : ActiveRoute) : Prop :=
  (d.input, d.output, d.target, d.k, d.releasing) = (e.input, e.output, e.target, e.k, e.releasing) ∧
    ((e.remaining = 0 → e.gain = e.target) → d.remaining = 0 → d.gain = d.target)

theorem ActiveRoute.Ramps.refl (e : ActiveRoute) : e.Ramps e := ⟨rfl, id⟩

theorem ActiveRoute.advanced_ramps (e : ActiveRoute) : e.advanced.Ramps e := by
  unfold ActiveRoute.advanced ActiveRoute.Ramps
  split
  · exact ⟨rfl, id⟩
  · split
    · exact ⟨rfl, fun _ _ => rfl⟩
    · exact ⟨rfl, fun _ c => by simp only at c; omega⟩

theorem ActiveRoute.Ramps.key {d e : ActiveRoute} (h : d.Ramps e) : d.key = e.key := by
  obtain ⟨same, -⟩ := h
  simp only [Prod.mk.injEq] at same
  simp [ActiveRoute.key, same]

/-- A step of ramps keeps the banks and the routes in order (R125). -/
theorem State.SceneOk.ramped {s : State} (h : s.SceneOk) {g : ActiveRoute → ActiveRoute} (hg : ∀ e, (g e).Ramps e) :
    State.SceneOk { s with scene := { s.scene with active := s.scene.active.map g } } := by
  obtain ⟨⟨pend, aOrder, aLen, aHeld, aFields⟩, rest⟩ := h
  have fields (e : ActiveRoute) :
      (g e).input = e.input ∧ (g e).output = e.output ∧ (g e).target = e.target ∧ (g e).k = e.k ∧
        (g e).releasing = e.releasing := by simpa using (hg e).1
  refine ⟨⟨pend, ?_, ?_, ?_, ?_⟩, ?_⟩
  · simpa only [List.pairwise_map, fun e => (hg e).key] using aOrder
  · simpa using aLen
  · simpa [List.filter_map, Function.comp_def, fields] using aHeld
  · simpa [fields] using aFields
  · intro d hd
    obtain ⟨e, he, rfl⟩ := List.mem_map.mp hd
    exact ⟨(hg e).2 (rest e he).1, by simpa [fields] using (rest e he).2⟩

/-- Routes that leave the active bank keep it in order (R126). -/
theorem State.SceneOk.removed {s : State} (h : s.SceneOk) {l : List ActiveRoute} (hl : l.Sublist s.scene.active) :
    State.SceneOk { s with scene := { s.scene with active := l } } := by
  obtain ⟨⟨pend, aOrder, aLen, aHeld, aFields⟩, rest⟩ := h
  exact ⟨⟨pend, aOrder.sublist hl, hl.length_le.trans aLen, ((hl.filter _).length_le).trans aHeld,
    fun e he => aFields e (hl.subset he)⟩, fun e he => rest e (hl.subset he)⟩

/-! ## The pending bank (R112 to R118) -/

/-- A pending bank in order, in any state but FREE, keeps the banks in order. -/
theorem State.SceneOk.pending {s : State} (h : s.SceneOk) {v : Scene} (active : v.active = s.scene.active)
    (order : v.pendingBank.Pairwise fun x y => x.key < y.key)
    (fits : v.pendingBank.length ≤ pendingLimit s.clock.rateClass) (free : v.state = .free → v.pendingBank = [])
    (fields : ∀ e ∈ v.pendingBank, RouteFieldsOk e.input e.output e.target e.k)
    (kr : ∀ k, v.state = .sealed k → k ≤ 11) : State.SceneOk { s with scene := v } := by
  obtain ⟨⟨-, act⟩, rest⟩ := h
  refine ⟨⟨⟨order, fits, free, fields, kr⟩, ?_⟩, ?_⟩
  · simpa only [State.ActiveOk, active] using act
  · simpa only [State.RoutesOk, active] using rest

/-- An empty pending bank (R112, R118). -/
theorem State.SceneOk.emptied {s : State} (h : s.SceneOk) {v : Scene} (active : v.active = s.scene.active)
    (empty : v.pendingBank = []) (unsealed : ∀ k, v.state ≠ .sealed k) : State.SceneOk { s with scene := v } :=
  h.pending active (by simp [empty]) (by simp [empty]) (fun _ => empty) (by simp [empty]) fun k hk =>
    absurd hk (unsealed k)

/-- A change of the wait marks and the cut count alone. -/
theorem State.SceneOk.marked {s : State} (h : s.SceneOk) (copy take : Await) (cut : Nat) :
    State.SceneOk { s with scene := { s.scene with copy := copy, take := take, cut := cut } } := h

/-- The copy enters the routes that are not releasing (R113). -/
theorem State.SceneOk.copied {s : State} (h : s.SceneOk) (hs : s.scene.state = .building) :
    State.SceneOk { s with scene := s.scene.copyMade } := by
  obtain ⟨-, aOrder, -, aHeld, aFields⟩ := h.1
  refine h.pending rfl ?_ ?_ (fun c => ?_) ?_ fun k c => ?_
  · show s.scene.copied.Pairwise _
    rw [Scene.copied, List.pairwise_map]
    exact aOrder.filter _
  · show s.scene.copied.length ≤ _
    rwa [Scene.copied, List.length_map]
  · simp [Scene.copyMade, hs] at c
  · intro e he
    obtain ⟨a, ha, rfl⟩ := List.mem_map.mp he
    exact aFields a (List.mem_of_mem_filter ha)
  · simp [Scene.copyMade, hs] at c

/-! ## ROUTESET's entries (R114, R115) -/

theorem fieldInt_bounds (p : List Byte) (off : Nat) : -8388608 ≤ fieldInt p off ∧ fieldInt p off ≤ 8388607 := by
  have lo := BitVec.le_toInt (BitVec.ofNat 24 (field p off 3))
  have hi := BitVec.toInt_lt (x := BitVec.ofNat 24 (field p off 3))
  unfold fieldInt
  omega

theorem routeEntries_target (p : List Byte) {e : RouteEntry} (he : e ∈ routeEntries p) :
    -8388608 ≤ e.target ∧ e.target ≤ 8388607 := by
  induction p using routeEntries.induct with
  | case1 a b c d e' f rest ih =>
    obtain rfl | mem := List.mem_cons.mp he
    · exact fieldInt_bounds _ _
    · exact ih mem
  | case2 p hp => simp [routeEntries] at he

theorem firstIndex_eq_none {α : Type} {p : α → Bool} {l : List α} (h : firstIndex p l = none) : ∀ x ∈ l, p x = false := by
  induction l with
  | nil => simp
  | cons x xs ih =>
    unfold firstIndex at h
    split at h
    · simp at h
    next hx =>
      intro y hy
      obtain rfl | mem := List.mem_cons.mp hy
      · simpa using hx
      · exact ih (Option.map_eq_none_iff.mp h) y mem

theorem mem_applyRoutes {x : RouteEntry} {es bank : List RouteEntry} (h : x ∈ applyRoutes es bank) :
    (∃ e ∈ es, x = { e with k := min e.k 11 }) ∨ x ∈ bank := by
  induction es generalizing bank with
  | nil => exact .inr h
  | cons e es ih =>
    rw [applyRoutes_cons] at h
    obtain ⟨d, hd, rfl⟩ | h := ih h
    · exact .inl ⟨d, List.mem_cons_of_mem _ hd, rfl⟩
    · obtain rfl | h := insertEntry_mem h
      · exact .inl ⟨e, List.mem_cons_self, rfl⟩
      · exact .inr h

/-- The entries of a ROUTESET that is taken (R115). -/
theorem State.SceneOk.routed {s : State} (h : s.SceneOk) {p : List Byte} (hs : s.scene.state = .building)
    (good : firstIndex (fun e : RouteEntry => decide (95 < e.input ∨ 63 < e.output)) (routeEntries p) = none)
    (fits : s.scene.pendingBank.length + (newKeys (routeEntries p) s.scene.pendingBank).length ≤
      pendingLimit s.clock.rateClass) :
    State.SceneOk
      { s with scene := { s.scene with pendingBank := applyRoutes (routeEntries p) s.scene.pendingBank } } := by
  obtain ⟨pOrder, -, -, pFields, -⟩ := h.1.1
  refine h.pending rfl (applyRoutes_pairwise _ pOrder) ((applyRoutes_length _ pOrder).trans_le fits)
    (fun c => ?_) (fun x hx => ?_) fun k c => ?_
  · simp [hs] at c
  · obtain ⟨e, he, rfl⟩ | hx := mem_applyRoutes hx
    · have range := firstIndex_eq_none good e he
      simp only [decide_eq_false_iff_not, not_or, not_lt] at range
      obtain ⟨lo, hi⟩ := routeEntries_target p he
      exact ⟨range.1, range.2, lo, hi, Nat.min_le_right _ _⟩
    · exact pFields x hx
  · simp [hs] at c

/-- Entries that leave the pending bank (R116). -/
theorem State.SceneOk.dropped {s : State} (h : s.SceneOk) {l : List RouteEntry} (hl : l.Sublist s.scene.pendingBank) :
    State.SceneOk { s with scene := { s.scene with pendingBank := l } } := by
  obtain ⟨pOrder, pLen, pFree, pFields, pKr⟩ := h.1.1
  exact h.pending rfl (pOrder.sublist hl) (hl.length_le.trans pLen)
    (fun c => List.sublist_nil.mp (pFree c ▸ hl)) (fun e he => pFields e (hl.subset he)) pKr

/-- The scene store after FLUSH or a reset (R131, R132). -/
theorem State.SceneOk.cleared (s : State) (v : Scene) (active : v.active = []) (pending : v.pendingBank = [])
    (unsealed : ∀ k, v.state ≠ .sealed k) : State.SceneOk { s with scene := v } := by
  refine ⟨⟨⟨by simp [pending], by simp [pending], fun _ => pending, by simp [pending],
    fun k hk => absurd hk (unsealed k)⟩, by simp [State.ActiveOk, active]⟩, by simp [State.RoutesOk, active]⟩

end Sys2Proof.Machine
end

section
/-!
SUPPORT. The block event, what is settled before a house sample event, and the house sample event itself: a property
that every move keeps survives them (R9, R12, R119, R160, logs 4 and 5).
-/

namespace Sys2Proof.Machine

open Sys2Proof

/-! ## Stores under one house sample -/

/-- The mute gain of one output is a multiple of a step, up to unity (R139). -/
abbrev OutRec.GainOk (o : OutRec) : Prop := o.m % Config.muteStep = 0 ∧ o.m ≤ Config.unity

theorem muteStepped_ok {m target : Nat} (h : m % Config.muteStep = 0 ∧ m ≤ Config.unity)
    (ht : target = 0 ∨ target = Config.unity) :
    muteStepped m target % Config.muteStep = 0 ∧ muteStepped m target ≤ Config.unity := by
  obtain ⟨steps, most⟩ := h
  unfold muteStepped
  simp only [Config.muteStep, Config.unity] at *
  split
  · omega
  · split <;> omega

theorem OutRec.muteTarget_cases (o : OutRec) (groups : Byte) (house : Bool) :
    o.muteTarget groups house = 0 ∨ o.muteTarget groups house = Config.unity := by
  unfold OutRec.muteTarget
  split
  · exact .inl rfl
  · exact .inr rfl

theorem OutRec.GainOk.stepMute {o : OutRec} (h : o.GainOk) (groups : Byte) (house : Bool) :
    (o.stepMute groups house).GainOk := by
  unfold OutRec.stepMute OutRec.GainOk
  dsimp only
  split
  · exact h
  · exact muteStepped_ok h (o.muteTarget_cases groups house)

@[simp] theorem OutRec.endDuck_m (o : OutRec) : o.endDuck.m = o.m := by
  unfold OutRec.endDuck
  split
  · split <;> rfl
  · rfl

theorem runStage_gains (passing : List Access) (groups : Byte) (house : Bool) (cap base : Nat)
    (sums : Nat → Int × Bool) {os : List OutRec} (h : ∀ o ∈ os, o.GainOk) (k : Nat) (m : Memory) :
    ∀ o ∈ (runStage passing groups house cap base sums os k m).outs, o.GainOk := by
  induction os generalizing k m with
  | nil => simp [runStage]
  | cons o os ih =>
    intro p hp
    simp only [runStage, List.mem_cons] at hp
    obtain rfl | hp := hp
    · have first := (h o List.mem_cons_self).stepMute groups house
      simpa [OutRec.GainOk, OutRec.finish, OutRec.upToDuck] using first
    · exact ih (fun q hq => h q (List.mem_cons_of_mem _ hq)) _ _ p hp

theorem State.GainsOk.map {s : State} (h : s.GainsOk) {g : OutRec → OutRec} (hg : ∀ o : OutRec, o.GainOk → (g o).GainOk) :
    State.GainsOk { s with outs := s.outs.map g } := by
  intro p hp
  obtain ⟨o, ho, rfl⟩ := List.mem_map.mp hp
  exact hg o (h o ho)

theorem State.GainsOk.modify {s : State} (h : s.GainsOk) (k : Nat) {g : OutRec → OutRec}
    (hg : ∀ o, s.outs[k]? = some o → (g o).GainOk) : State.GainsOk { s with outs := s.outs.modify k g } := by
  intro p hp
  obtain ⟨j, hj⟩ := List.mem_iff_getElem?.mp hp
  rw [List.getElem?_modify] at hj
  obtain ⟨o, ho, rfl⟩ := Option.map_eq_some_iff.mp hj
  split
  next same => exact hg o (same ▸ ho)
  · exact h o (List.mem_of_getElem? ho)

/-- Cues that leave the list keep it in order (R155). -/
theorem State.CuesOk.removed {s : State} (h : s.CuesOk) {l : List Cue} (hl : l.Sublist s.cues) :
    State.CuesOk { s with cues := l } :=
  ⟨hl.length_le.trans h.1, h.2.sublist hl⟩

namespace KeptByEvents

variable {P : State → Prop} (K : KeptByEvents P) {s : State} (h : P s)
include K h

/-! ## The scene store at a block event (R113, R119, R126) -/

theorem removeReleased : P (removeReleased s) := K.scene (fun ok => ok.removed List.filter_sublist) h

theorem takeBank : P (takeBank s).2.2 := by
  unfold Machine.takeBank
  split
  next _ sealed => exact K.raiseIf (K.scene (fun ok => ok.taken sealed) h) ..
  · exact h

theorem serveTake : P (serveTake s) := by
  unfold Machine.serveTake
  split
  · have taken : P (Machine.takeBank { s with scene := { s.scene with take := .none } }).2.2 :=
      K.takeBank (K.scene (fun ok => ok.marked ..) h)
    split
    next e => exact K.complete (by rwa [e] at taken) ..
    next e => exact K.complete (by rwa [e] at taken) ..
  · exact h

theorem serveCopy : P (serveCopy s) := by
  unfold Machine.serveCopy
  split
  · split
    next building => exact K.complete (K.scene (fun ok => ok.copied building) h) ..
    · exact K.complete (K.scene (fun ok => ok.marked ..) h) ..
  · exact h

/-! ## The cue pass (R160) -/

theorem groupStep (g : Nat) (on : Bool) : P (groupStep g on s).2 := by
  unfold Machine.groupStep
  split
  · exact h
  · exact K.unseen (by rfl) h

theorem cueAct (c : Cue) : P (cueAct c s).2 := by
  unfold Machine.cueAct
  split
  · exact K.takeBank h
  · exact K.groupStep h ..
  · exact K.groupStep h ..
  · exact K.onairSteps _ h
  · exact h

theorem fireCue (c : Cue) : P (fireCue c s) := K.raiseIf (K.cueAct h c) ..

theorem cuePass : P (cuePass s) :=
  foldl_keeps (P := P) (fun _ c hu => K.fireCue hu c) _ (K.cues (s := s) (fun ok => ok.removed List.filter_sublist) h)

/-! ## The block event (R9) -/

theorem judgeHouseMute (before : Bool) (cause : Nat) : P (judgeHouseMute before cause s) := K.raiseIf h ..

theorem sampleMute : P (sampleMute s) := K.raiseIf (K.unseen (by rfl) h) ..

theorem selectorJudgements : P (selectorJudgements s) := K.removeReleased (K.primed (K.alignment h))

theorem runningBlock (cuesFirst : Bool) : P (runningBlock cuesFirst s) := by
  have stepped := K.servo (K.underrun .b (K.underrun .a h))
  unfold Machine.runningBlock
  dsimp only
  split
  · exact K.selectorJudgements (K.cuePass stepped)
  · exact K.cuePass (K.selectorJudgements stepped)

theorem blockWork (mute cuesFirst : Bool) : P (blockWork mute cuesFirst s) := by
  have sampled : P (Machine.sampleMute (Machine.clockReturn { s with blockDue := false, mutePin := mute })) :=
    K.sampleMute (K.clockReturn (K.unseen (by rfl) h))
  unfold Machine.blockWork
  dsimp only
  split
  · exact K.removeReleased (K.scrubStep sampled)
  · exact K.runningBlock sampled cuesFirst

theorem blockEvent (mute cuesFirst : Bool) : P (blockEvent mute cuesFirst s) := by
  unfold Machine.blockEvent
  split
  · exact K.blockWork (K.caughtUp h) ..
  · exact h

/-- What is settled after the end of a transition (log 4). -/
theorem settleRest :
    P (let s1 := Machine.flushComplete (Machine.returnGood (Machine.expiries s))
       let s2 := Machine.startupEnd (Machine.blockEvent s1.mutePin false s1)
       Machine.serveTake (Machine.serveCopy
         (Machine.dueOrders (Machine.watchClose .b (Machine.watchClose .a (Machine.abandons s2)))))) :=
  K.serveTake (K.serveCopy (K.dueOrders (K.watchClose (K.watchClose (K.abandons (K.startupEnd (K.blockEvent
    (K.flushComplete (K.returnGood (K.expiries h))) ..))) .a) .b)))

/-! ## The output side of a house sample event -/

theorem rampStep : P (rampStep s) := K.scene (fun ok => ok.ramped ActiveRoute.advanced_ramps) h

theorem raiseClip (sats : List Saturation) : P (raiseClip sats s) := by
  cases sats with
  | nil => exact h
  | cons v vs => exact K.raise _ _ h

theorem outputStage (passing : List Access) (inputs : List Int) : P (outputStage passing inputs s) := by
  refine K.raiseClip (foldl_keeps (fun _ _ hu => K.raise _ _ hu) _ ?_) _
  let run := runStage passing s.groups s.houseMute (delayCapacity s.pagesD) s.delayBase
    (mixSum s.scene.active inputs) s.outs 0 s.mem
  have gains : P { s with outs := run.outs } := K.outs (fun ok => runStage_gains _ _ _ _ _ _ ok _ _) h
  have written : P { s with outs := run.outs, mem := run.mem } :=
    K.mem (s := { s with outs := run.outs }) (fun ok => runStage_wf _ _ _ _ _ _ _ _ _ ok) gains
  exact K.unseen (by rfl) written

theorem startingSample : P (startingSample s) := by
  have gains := K.outs (fun ok => ok.map fun o ho => ho.stepMute s.groups s.houseMute) (K.rampStep h)
  exact K.unseen (by rfl) gains

theorem paced (x : Side) : P (s.onFeed x fun f => f.paceSample false) := K.onUnits h (by simp)

theorem blockFalls : P (blockFalls s) := by
  have fell : P { s with scene := { s.scene with copy := s.scene.copy.fell, take := s.scene.take.fell } } :=
    K.scene (fun ok => ok.marked ..) h
  have due := K.awaiting (s.sel.awaiting.map fun e => { e with due := true }) fell
  cases e : s.starting
  · have heard := K.onUnits (K.onUnits due (x := .a) (g := Feed.blockFell) rfl) (x := .b) (g := Feed.blockFell) rfl
    refine K.unseen ?_ heard
    simp only [Machine.blockFalls, e]
    rfl
  · refine K.unseen ?_ due
    simp only [Machine.blockFalls, e]
    rfl

theorem markBlock : P (markBlock s) := by
  unfold Machine.markBlock
  split
  · exact K.blockFalls h
  · exact h

end KeptByEvents
end Sys2Proof.Machine
end

section
/-!
SUPPORT. Every command and every step: a property that survives the moves of events, of the house sample event and of
the commands survives a step (the induction that each invariant uses).
-/

namespace Sys2Proof.Machine

open Sys2Proof

/-! ## The house sample event (R8, R13) -/

/-- A property `P` that the events keep, and a property `Q` that holds besides once no transition is over: what a house
sample event needs to keep `P`. -/
structure KeptBySamples (P Q : State → Prop) : Prop where
  events : KeptByEvents P
  settled : KeptByEvents Q
  weaken {s : State} : Q s → P s
  caughtUp {s : State} : P s → Q (caughtUp s)
  inherit {s : State} : Q s → Q (inheritRatio s)
  program {s : State} (va vb : List ReadResult) : Q s → P (programStep va vb s)

namespace KeptBySamples

variable {P Q : State → Prop} (K : KeptBySamples P Q) {s : State}
include K

/-- What stands before a house sample event: the RESET line is asserted, or nothing is due any more. -/
theorem settle (h : P s) : (settle s).resetLine = true ∧ P (settle s) ∨ Q (settle s) := by
  unfold Machine.settle
  split
  next line => exact .inl ⟨line, h⟩
  next line =>
    have ended : Q (transitionEnd s) := by
      rw [transitionEnd, if_neg line]
      exact K.caughtUp h
    exact .inr (K.settled.settleRest ended)

theorem runningSample (reads : SampleReads) (h : Q s) : P (runningSample reads s) := by
  have inherited := K.inherit (K.settled.paced (K.settled.paced h .a) .b)
  exact K.events.outputStage (K.events.rampStep (K.program _ _ inherited)) ..

theorem makeSample (reads : SampleReads) (h : Q s) : P (makeSample reads s) := by
  have counted : Q { s with clock := s.clock.sampled } := K.settled.clock .sampled h
  refine K.events.markBlock ?_
  unfold sampleWork
  split
  · exact K.events.startingSample (K.weaken counted)
  · exact K.runningSample reads counted

theorem houseSample (reads : SampleReads) (h : s.resetLine = true ∧ P s ∨ Q s) : P (houseSample reads s) := by
  unfold Machine.houseSample
  split
  · have held : P s := h.elim And.right K.weaken
    exact K.events.unseen (by rfl) (K.events.clock .shown held)
  next line => exact K.makeSample reads (h.resolve_left fun c => line c.1)

/-- What stands before a house sample event stands there after a move of the clock, too. -/
theorem clocked {c : Clock} (m : s.clock.Moves c) (h : s.resetLine = true ∧ P s ∨ Q s) :
    s.resetLine = true ∧ P { s with clock := c } ∨ Q { s with clock := c } :=
  h.imp (And.imp_right (K.events.clock m)) (K.settled.clock m)

theorem terminalCount (reads : SampleReads) (h : s.resetLine = true ∧ P s ∨ Q s) : P (terminalCount reads s) := by
  have held : P s := h.elim And.right K.weaken
  unfold Machine.terminalCount
  split
  · exact held
  · split
    · exact K.events.clock .restarted held
    · exact K.houseSample reads (K.clocked (s := s) .restarted h)

theorem wordClockEdge (reads : SampleReads) (h : s.resetLine = true ∧ P s ∨ Q s) : P (wordClockEdge reads s) := by
  have held : P s := h.elim And.right K.weaken
  unfold Machine.wordClockEdge
  split
  · exact held
  · unfold followedEdge
    split
    · exact K.events.clock .edgeInFollowing held
    · exact K.houseSample reads (K.clocked (s := s) .edgeInFollowing h)
  next c => exact K.events.clock (.edgeInHoldover _ c) held

/-- One period of the master clock (R1, R4, R5). -/
theorem tick (h : P s) : P (tick s) := by
  have ready := K.settle h
  have held : P (Machine.settle s) := ready.elim And.right K.weaken
  have divided : P (dividerTick (Machine.settle s)) := by
    unfold dividerTick
    split
    · exact K.terminalCount _ ready
    next c => exact K.events.clock (.counted (Nat.not_le.mp c)) held
  unfold Machine.tick
  split
  · exact held
  · unfold measureTick
    split
    · exact divided
    · split
      · exact K.events.lossCondition (K.events.wordClockLoss (K.events.clock .measureFull divided))
      next c => exact K.events.clock (.measured (Nat.not_le.mp c)) divided

end KeptBySamples

/-! ## The commands -/

/-- A property that every move of a command and of a reset keeps. -/
structure KeptByCommands (P : State → Prop) : Prop extends KeptByEvents P where
  judgeBlock {s : State} (x : Side) (l : Lane) (v : LaneHeader) (body : List Byte) : P s → P (judgeBlock x l v body s)
  feedset {s : State} {x : Side} {p : List Byte} {u : Setup} : (s.feed x).inPlay = false →
    feedsetCheck p s.clock.rateClass (s.pages x) = .ok u → P s → P (s.onFeed x fun f => f.install u s.clock.rateClass)
  takePlay {s : State} {x : Side} {v : PlayParams} : v.pos + v.count < Config.posEnd → (s.feed x).st = .idle → P s →
    P (s.onFeed x fun f => f.takePlay v)
  holdPlay {s : State} {x : Side} {v : PlayParams} : v.pos + v.count < Config.posEnd → (s.feed x).st = .complete → P s →
    P (s.onFeed x fun f => { f with pendingPlay := some v })
  dropPlay {s : State} {x : Side} : (s.feed x).st = .complete → P s → P (s.onFeed x fun f => { f with pendingPlay := none })
  acknowledged {s : State} {x : Side} : (s.feed x).st = .complete → P s → P (s.onFeed x Feed.acknowledged)
  policy {s : State} {patch : Bool} {x : Side} {kx : Nat} : 5 ≤ kx → kx ≤ 10 → P s →
    P (s.onSel fun v => { v with patch := patch, preferred := x, policyKx := kx })
  clockset {s : State} {source : ClockSource} {house : Rate} {n : Nat} : 31 ≤ n → n ≤ 255 →
    (house = s.clock.rateClass ∨ s.classFree = true) → P s →
    P { s with
      clock := s.clock.set source house n, feedA := (s.clockFeed .a house).feed, feedB := (s.clockFeed .b house).feed }
  partition {s : State} (a b : Nat) : s.feedA.inPlay = false → s.feedB.inPlay = false → P s →
    P { s with
      feedA := (s.feedA.repartitioned s.clock.rateClass a).feed
      feedB := (s.feedB.repartitioned s.clock.rateClass b).feed }
  flushed {s : State} : P s →
    P { s with
      feedA := s.feedA.flushed s.clock.rateClass, feedB := s.feedB.flushed s.clock.rateClass, sel := s.sel.flushed }
  fetched {s : State} (r : Role) : P s → P { s with notices := s.notices.fetched r }
  routed {s : State} (map : List (Option Role)) : P s → P { s with notices := { s.notices with routing := map } }
  powerOn {s : State} (strap : Bool) : P s → P (powerOn strap s)
  resetAssert {s : State} : P s → P (resetAssert s)

theorem fieldByte_le (p : List Byte) (off : Nat) : u8 p off ≤ 255 := Nat.le_of_lt_succ (p.getD off 0).isLt

theorem clampKx_range (kx : Nat) : 5 ≤ clampKx kx ∧ clampKx kx ≤ 10 := by
  unfold clampKx
  split
  · omega
  · split <;> omega

theorem OutRec.GainOk.takeDelay {o : OutRec} (h : o.GainOk) (d : Nat) : (o.takeDelay d).1.GainOk := by
  unfold OutRec.takeDelay
  split
  · exact h
  · split
    · exact h
    · split <;> exact h

theorem OutRec.GainOk.duckEnds {o : OutRec} (h : o.GainOk) : o.duckEnds.GainOk := by
  unfold OutRec.duckEnds
  split
  · split
    · exact h
    · split
      · exact ⟨rfl, Nat.zero_le _⟩
      · exact h
  · exact h

theorem State.CuesOk.inserted {s : State} (h : s.CuesOk) (room : ¬ Config.cueCapacity ≤ s.cues.length) (c : Cue) :
    State.CuesOk { s with cues := insertCue c s.cues } := by
  obtain ⟨_, order⟩ := h
  refine ⟨?_, insertCue_sorted c order⟩
  rw [insertCue_length]
  omega

/-- A frame's code names a command of the table, or it is unknown (R170, step 1). -/
theorem execFrame_cases (code : Byte) (addr : BitVec 7) (p : List Byte) :
    (∃ i : Instr, i.frame = some (code, addr, p) ∧ execFrame code addr p = exec i) ∨
      knownCode code.toNat = false ∧ execFrame code addr p = fun s => .next (takeFrame code addr p (fun _ t => t) s) := by
  have named {i : Instr} {c : Byte} (hi : i.frame = some (c, addr, p)) (he : execFrame c addr p = exec i)
      (hc : code.toNat = c.toNat) : ∃ i : Instr, i.frame = some (code, addr, p) ∧ execFrame code addr p = exec i := by
    obtain rfl := BitVec.eq_of_toNat_eq hc
    exact ⟨i, hi, he⟩
  by_cases known : knownCode code.toNat = true
  · left
    simp only [knownCode, Bool.or_eq_true, Bool.and_eq_true, decide_eq_true_eq] at known
    obtain (((c | c) | c) | c) | c := known
    · obtain e | e | e : code.toNat = 1 ∨ code.toNat = 2 ∨ code.toNat = 3 := by omega
      · exact named (i := .ident addr p) rfl rfl e
      · exact named (i := .notefetch addr p) rfl rfl e
      · exact named (i := .progstat addr p) rfl rfl e
    · obtain e | e | e | e | e : code.toNat = 0x10 ∨ code.toNat = 0x11 ∨ code.toNat = 0x12 ∨ code.toNat = 0x13 ∨
          code.toNat = 0x14 := by omega
      · exact named (i := .feedset addr p) rfl rfl e
      · exact named (i := .play addr p) rfl rfl e
      · exact named (i := .stop addr p) rfl rfl e
      · exact named (i := .feedack addr p) rfl rfl e
      · exact named (i := .feedstat addr p) rfl rfl e
    · obtain e | e | e | e | e | e | e : code.toNat = 0x20 ∨ code.toNat = 0x21 ∨ code.toNat = 0x22 ∨
          code.toNat = 0x23 ∨ code.toNat = 0x24 ∨ code.toNat = 0x25 ∨ code.toNat = 0x26 := by omega
      · exact named (i := .scnopen addr p) rfl rfl e
      · exact named (i := .routeset addr p) rfl rfl e
      · exact named (i := .routedrop addr p) rfl rfl e
      · exact named (i := .scnseal addr p) rfl rfl e
      · exact named (i := .scndiscard addr p) rfl rfl e
      · exact named (i := .scntake addr p) rfl rfl e
      · exact named (i := .scnstat addr p) rfl rfl e
    · obtain e | e | e : code.toNat = 0x30 ∨ code.toNat = 0x31 ∨ code.toNat = 0x32 := by omega
      · exact named (i := .cuepost addr p) rfl rfl e
      · exact named (i := .cuecancel addr p) rfl rfl e
      · exact named (i := .cuestat addr p) rfl rfl e
    · obtain e | e | e | e | e | e | e | e | e | e : code.toNat = 0x40 ∨ code.toNat = 0x41 ∨ code.toNat = 0x42 ∨
          code.toNat = 0x43 ∨ code.toNat = 0x44 ∨ code.toNat = 0x45 ∨ code.toNat = 0x46 ∨ code.toNat = 0x47 ∨
          code.toNat = 0x48 ∨ code.toNat = 0x49 := by omega
      · exact named (i := .clockset addr p) rfl rfl e
      · exact named (i := .partition addr p) rfl rfl e
      · exact named (i := .outset addr p) rfl rfl e
      · exact named (i := .outstat addr p) rfl rfl e
      · exact named (i := .groupset addr p) rfl rfl e
      · exact named (i := .onair addr p) rfl rfl e
      · exact named (i := .policy addr p) rfl rfl e
      · exact named (i := .noteroute addr p) rfl rfl e
      · exact named (i := .callock addr p) rfl rfl e
      · exact named (i := .flush addr p) rfl rfl e
  · right
    rw [Bool.not_eq_true] at known
    refine ⟨known, funext fun s => ?_⟩
    unfold execFrame
    split
    pick_goal -1
    · rfl
    all_goals
      rename_i c
      rw [c] at known
      exact absurd known (by decide)

theorem judge_long {c : Nat} {r : Role} {p : List Byte} {starting : Bool} (hp : ¬ p.length ≤ 250) :
    judge c r p starting ≠ none := by
  rw [judge, if_pos (Nat.not_le.mp hp)]
  simp

namespace KeptByCommands

variable {P : State → Prop} (K : KeptByCommands P) {s : State} (h : P s)
include K h

/-! ## Lanes (R15, R16) -/

theorem laneByte (x : Side) (l : Lane) (b : Byte) : P (laneByte x l b s) := by
  unfold Machine.laneByte
  split
  · split
    · exact K.onUnits h (by simp)
    · exact h
  · split
    · exact K.onUnits h (by simp)
    · split
      · exact h
      · exact K.onUnits h (by simp)
  · split
    · exact K.onUnits h (by simp)
    · unfold laneHeaded
      split <;> exact K.onUnits h (by simp)
  · split
    · exact K.onUnits h (by simp)
    · exact K.onUnits (K.judgeBlock x l _ _ (K.caughtUp (K.onUnits h (by simp)))) (by simp)

theorem laneArrive (x : Side) (l : Lane) (bytes : List Byte) : P (laneArrive x l bytes s) := by
  unfold Machine.laneArrive
  split
  · exact h
  · exact foldl_keeps (P := P) (s := s) (fun _ b hu => K.laneByte hu x l b) _ h

theorem laneBegin (x : Side) (l : Lane) (v : LaneHeader) : P (laneBegin x l v s) := by
  unfold Machine.laneBegin
  split
  · exact K.laneArrive h ..
  · exact h

/-! ## The feed commands (R33, R49 to R51, R59 to R62) -/

theorem ownFeedset (p : List Byte) (x : Side) (r : Role) : P (Machine.feedset p x r s) := by
  unfold Machine.feedset
  split
  · exact K.complete h ..
  next rest =>
    split
    · exact K.complete h ..
    next u good => exact K.complete (K.feedset (Bool.not_eq_true _ ▸ rest) good h) ..

theorem ownPlay (v : PlayParams) (x : Side) (r : Role) : P (Machine.play v x r s) := by
  unfold Machine.play
  split
  · exact K.complete h ..
  next range =>
    have fits : v.pos + v.count < Config.posEnd := by simp only [Config.posEnd] at *; omega
    split
    · exact K.complete h ..
    next rest =>
      split
      · exact K.complete h ..
      · split
        · exact K.complete h ..
        · split
          next c => exact K.complete (K.holdPlay fits c h) ..
          next c =>
            have idle : (s.feed x).st = .idle := by
              unfold Feed.inPlay at rest
              cases e : (s.feed x).st <;> simp_all
            exact K.complete (K.takePlay fits idle h) ..

theorem ownStop (p : List Byte) (x : Side) (r : Role) : P (Machine.stop p x r s) := by
  unfold Machine.stop
  split
  · exact K.complete h ..
  · unfold stopFeed
    split
    · exact K.complete h ..
    · exact K.complete h ..
    next c =>
      split
      · exact K.complete (K.dropPlay c h) ..
      · exact K.complete h ..
    next c => exact K.complete (K.ended .stopped (.inl c) h) ..
    next c => exact K.complete (K.ended .stopped (.inr (.inl c)) h) ..
    next c =>
      split
      · exact K.awaiting _ h
      next apart => exact K.complete (K.ended .stopped (.inr (.inr ⟨c, apart⟩)) h) ..

theorem ownFeedack (x : Side) (r : Role) : P (Machine.feedack x r s) := by
  unfold Machine.feedack
  split
  next c _ => exact K.complete (K.acknowledged c h) ..
  · exact K.complete h ..

theorem ownPolicy (p : List Byte) (r : Role) : P (Machine.policy p r s) := by
  unfold Machine.policy
  split
  · split
    · exact K.complete h ..
    · exact K.complete (K.policy (clampKx_range _).1 (clampKx_range _).2 h) ..
  · exact K.complete h ..

/-! ## The scene commands (R112 to R119) -/

theorem ownScnopen (p : List Byte) (r : Role) : P (Machine.scnopen p r s) := by
  unfold Machine.scnopen
  split
  · exact K.complete h ..
  · split
    · exact K.complete h ..
    · split
      · exact K.scene (v := { s.scene with state := .building, pendingBank := [], copy := s.await })
          (fun ok => ok.emptied rfl rfl (by simp)) h
      · exact K.complete (K.scene (v := { s.scene with state := .building, pendingBank := [], copy := .none })
          (fun ok => ok.emptied rfl rfl (by simp)) h) ..

theorem ownRouteset (p : List Byte) (r : Role) : P (Machine.routeset (routeEntries p) r s) := by
  unfold Machine.routeset
  split
  · exact K.complete h ..
  next building =>
    split
    · exact K.complete h ..
    next good =>
      dsimp only
      split
      · exact K.complete h ..
      next fits => exact K.complete (K.scene (fun ok => ok.routed (not_not.mp building) good (Nat.not_lt.mp fits)) h) ..

theorem ownRoutedrop (ks : List (Nat × Nat)) (r : Role) : P (Machine.routedrop ks r s) := by
  unfold Machine.routedrop
  split
  · exact K.complete h ..
  · split
    · exact K.complete h ..
    · exact K.complete (K.scene (fun ok => ok.dropped List.filter_sublist) h) ..

theorem ownScnseal (kr : Nat) (r : Role) : P (Machine.scnseal kr r s) := by
  unfold Machine.scnseal
  split
  · exact K.complete h ..
  · refine K.complete (K.scene (fun ok => ?_) h) ..
    obtain ⟨order, fits, -, fields, -⟩ := ok.1.1
    refine ok.pending rfl order fits (by simp) fields fun k hk => ?_
    obtain rfl := PendState.sealed.inj hk
    exact Nat.min_le_right _ _

theorem ownScndiscard (r : Role) : P (Machine.scndiscard r s) := by
  unfold Machine.scndiscard
  split
  · exact K.complete h ..
  · exact K.complete (K.scene (v := { s.scene with state := .free, pendingBank := [] })
      (fun ok => ok.emptied rfl rfl (by simp)) h) ..

theorem ownScntake (r : Role) : P (Machine.scntake r s) := by
  unfold Machine.scntake
  split
  · exact K.scene (fun ok => ok.marked ..) h
  · exact K.complete h ..

theorem ownScnstat (p : List Byte) (r : Role) : P (Machine.scnstat p r s) := by
  unfold Machine.scnstat
  split
  · exact K.complete h ..
  · split <;> exact K.complete h ..

/-! ## The cue commands (R156, R158) -/

theorem ownCuepost (p : List Byte) (r : Role) : P (Machine.cuepost p r s) := by
  unfold Machine.cuepost
  split
  · exact K.complete h ..
  · split
    · exact K.complete h ..
    next room => exact K.complete (K.cues (fun ok => ok.inserted room _) h) ..

theorem ownCuecancel (tag : Byte) (r : Role) : P (Machine.cuecancel tag r s) := by
  unfold Machine.cuecancel
  dsimp only
  split
  · exact K.complete h ..
  · exact K.complete (K.cues (fun ok => ok.removed List.filter_sublist) h) ..

/-! ## The output commands (R140, R146, R150) -/

theorem ownGroupset (p : List Byte) (r : Role) : P (Machine.groupset p r s) := by
  unfold Machine.groupset
  split
  · exact K.complete h ..
  · split
    · exact K.complete h ..
    · exact K.complete (K.groupStep h ..) ..

theorem ownOutset (p : List Byte) (r : Role) : P (Machine.outset p r s) := by
  unfold Machine.outset
  split
  · exact K.complete h ..
  · dsimp only
    split
    · exact K.complete h ..
    · refine K.complete (K.outs (fun ok => ok.modify _ fun o ho => ?_) h) ..
      refine OutRec.GainOk.takeDelay ?_ _
      have stored : (s.outs.getD (u8 p 0) outReset).GainOk := by
        rw [List.getD_eq_getElem?_getD, ho]
        exact ok o (List.mem_of_getElem? ho)
      exact stored

theorem ownOutstat (p : List Byte) (r : Role) : P (Machine.outstat p r s) := by
  unfold Machine.outstat
  split
  · exact K.complete h ..
  next clear _ =>
    split
    · exact K.complete h ..
    · exact K.complete (K.outs (fun ok => ok.modify (g := fun o => { o with clip := o.clip && !clear }) _
        fun o ho => ok o (List.mem_of_getElem? ho)) h) ..

theorem duckEnd (k : Nat) : P (duckEnd k s) := by
  unfold Machine.duckEnd
  split
  · exact h
  · exact K.outs (fun ok => ok.modify _ fun o ho => OutRec.GainOk.duckEnds (ok o (List.mem_of_getElem? ho))) h

/-! ## The system controller's commands -/

theorem ownClockset (p : List Byte) (r : Role) : P (Machine.clockset p r s) := by
  unfold Machine.clockset
  split
  · exact K.complete h ..
  · split
    · split
      · exact K.complete h ..
      next least =>
        split
        · exact K.complete h ..
        next free =>
          refine K.complete (K.clockset (Nat.not_lt.mp least) (fieldByte_le p 2) ?_ h) ..
          rwa [not_and_or, not_not, Bool.not_eq_false] at free
    · exact K.complete h ..

theorem ownPartition (p : List Byte) (r : Role) : P (Machine.partition p r s) := by
  unfold Machine.partition
  dsimp only
  split
  · exact K.complete h ..
  · split
    · exact K.complete h ..
    · split
      · exact K.complete h ..
      next rest =>
        simp only [Bool.or_eq_true, not_or, Bool.not_eq_true] at rest
        have cut := K.outs (fun ok => ok.map (g := fun o => o.reclamped (maxDelay (field p 4 2))) fun o ho => ho)
          (K.partition (field p 0 2) (field p 2 2) rest.1 rest.2 h)
        exact K.complete (K.unseen (by rfl) cut) ..

theorem ownNotefetch (r : Role) : P (Machine.notefetch r s) := by
  unfold Machine.notefetch
  split
  · exact K.complete h ..
  · exact K.complete (K.fetched r h) ..

theorem ownNoteroute (pairs : List (Nat × Nat)) (r : Role) : P (Machine.noteroute pairs r s) := by
  unfold Machine.noteroute
  split
  · exact K.complete h ..
  · exact K.complete (K.routed _ h) ..

theorem ownCallock (r : Role) : P (Machine.callock r s) := by
  unfold Machine.callock
  split
  · exact K.complete h ..
  · exact K.complete (K.unseen (by rfl) h) ..

theorem ownFlush : P (Machine.flush s) := by
  have answered : P (answerAwaiting s) :=
    foldl_keeps (fun u e hu => by cases e.order <;> exact K.complete hu ..) _ h
  have cued := K.cues (cs := []) (fun ok => ok.removed (List.nil_sublist _)) (K.flushed answered)
  have staged := K.scene (v := sceneReset) (fun _ => State.SceneOk.cleared _ _ rfl rfl (by simp [sceneReset])) cued
  have ducked := K.outs (fun ok => ok.map (g := OutRec.flushed) fun o ho => ho) staged
  exact K.unseen (by rfl) ducked

/-- Every owner of a bus command. -/
theorem owner (i : Instr) (r : Role) : P (Instr.owner i r s) := by
  cases i with
  | feedset _ p => exact K.ownFeedset h p _ r
  | play _ p => exact K.ownPlay h _ _ r
  | stop _ p => exact K.ownStop h p _ r
  | feedack _ p => exact K.ownFeedack h _ r
  | scnopen _ p => exact K.ownScnopen h p r
  | routeset _ p => exact K.ownRouteset h p r
  | routedrop _ p => exact K.ownRoutedrop h _ r
  | scnseal _ p => exact K.ownScnseal h _ r
  | scndiscard => exact K.ownScndiscard h r
  | scntake => exact K.ownScntake h r
  | scnstat _ p => exact K.ownScnstat h p r
  | cuepost _ p => exact K.ownCuepost h p r
  | cuecancel _ p => exact K.ownCuecancel h _ r
  | clockset _ p => exact K.ownClockset h p r
  | partition _ p => exact K.ownPartition h p r
  | outset _ p => exact K.ownOutset h p r
  | outstat _ p => exact K.ownOutstat h p r
  | groupset _ p => exact K.ownGroupset h p r
  | policy _ p => exact K.ownPolicy h p r
  | notefetch => exact K.ownNotefetch h r
  | noteroute _ p => exact K.ownNoteroute h _ r
  | callock => exact K.ownCallock h r
  | flush => exact K.ownFlush h
  | onair _ p => exact K.awaiting _ h
  | ident | progstat | feedstat | cuestat => exact K.unseen (by rfl) h
  | _ => exact h

/-! ## Frames -/

theorem takeFrame {code : Byte} {addr : BitVec 7} {p : List Byte} {owner : Role → State → State}
    (own : ∀ r t, judge code.toNat r p s.starting = none → P t → P (owner r t)) : P (takeFrame code addr p owner s) := by
  rcases takeFrame_cases code addr p owner s with e | ⟨r, res, -, -, e⟩ | ⟨r, -, passed, e⟩
  · rwa [e]
  · rw [e]
    exact K.unseen (by rfl) h
  · rw [e]
    exact own r _ passed (K.unseen (by rfl) (K.caughtUp h))

theorem frame {i : Instr} {code : Byte} {addr : BitVec 7} {p : List Byte} (hi : i.frame = some (code, addr, p))
    {t : State} (e : exec i s = .next t) : P t := by
  by_cases hp : p.length ≤ 250
  · rw [exec_frame hi hp] at e
    obtain rfl := Host.Outcome.next.inj e
    refine K.takeFrame h fun r u _ hu => ?_
    rcases lengthChecked_cases (goodLength code.toNat p.length) r (Instr.owner i r) u with e | e <;> rw [e]
    · exact K.owner hu i r
    · exact K.complete hu ..
  · obtain ⟨owner, he⟩ := exec_takeFrame hi s
    rw [he] at e
    obtain rfl := Host.Outcome.next.inj e
    exact K.takeFrame h fun r u passed _ => absurd passed (judge_long hp)

theorem badFrame (code : Byte) (addr : BitVec 7) : P (badFrame code addr s) := by
  unfold Machine.badFrame
  split
  · exact h
  · split
    · exact h
    · split
      · exact h
      · exact K.unseen (by rfl) h

theorem execFrame {code : Byte} {addr : BitVec 7} {p : List Byte} {t : State}
    (e : execFrame code addr p s = .next t) : P t := by
  rcases execFrame_cases code addr p with ⟨i, hi, he⟩ | ⟨-, he⟩
  · exact K.frame h hi (he ▸ e)
  · rw [he] at e
    obtain rfl := Host.Outcome.next.inj e
    exact K.takeFrame h fun _ _ _ hu => hu

theorem formatError {addr : BitVec 7} {bytes : List Byte} {t : State}
    (e : execFrameFormatError addr bytes s = .next t) : P t := by
  unfold execFrameFormatError at e
  split at e
  · obtain rfl := Host.Outcome.next.inj e
    exact h
  · obtain rfl := Host.Outcome.next.inj e
    exact K.badFrame h ..
  · split at e
    · exact K.execFrame h e
    · obtain rfl := Host.Outcome.next.inj e
      exact K.badFrame h ..

theorem takeCall (bytes : List Byte) : P (takeCall bytes s) := by
  unfold Machine.takeCall
  split
  · exact h
  · split
    · exact h
    · unfold callByte
      split
      · exact K.judgeHouseMute (K.unseen (by rfl) h) ..
      · split
        · exact K.judgeHouseMute (K.unseen (by rfl) h) ..
        · exact h

theorem abandonFrame (who : Nat) (dir : Direction) (bytes : List Byte) : P (abandonFrame who dir bytes s) :=
  K.raise _ _ (K.unseen (by rfl) h)

theorem busStall (addr : BitVec 7) (dir : Direction) (bytes : List Byte) : P (busStall addr dir bytes s) := by
  unfold Machine.busStall
  split
  · exact h
  · split
    · split
      · exact K.abandonFrame (K.takeCall h _) ..
      · exact h
    · split
      · exact h
      · split
        · exact h
        · exact K.abandonFrame h ..

theorem endRamp (input output : Nat) : P (endRamp input output s) := by
  unfold Machine.endRamp
  split
  · exact h
  · refine K.scene (fun ok => ok.ramped fun e => ?_) h
    split
    · exact e.advanced_ramps
    · exact .refl e

theorem resetRelease (strap : Bool) : P (resetRelease strap s) := by
  unfold Machine.resetRelease
  split
  · exact K.unseen (by rfl) h
  · exact h

end KeptByCommands

/-! ## Commands and steps -/

/-- A command keeps what its moves keep. -/
theorem exec_keeps {P Q : State → Prop} (K : KeptByCommands P) (S : KeptBySamples P Q) {i : Instr} {s t : State}
    (h : P s) (e : exec i s = .next t) : P t := by
  cases hf : i.frame with
  | some v => exact K.frame h (code := v.1) (addr := v.2.1) (p := v.2.2) hf e
  | none =>
    cases i with
    | powerOn strap => exact Host.Outcome.next.inj e ▸ K.powerOn strap h
    | resetAssert => exact Host.Outcome.next.inj e ▸ K.resetAssert h
    | resetRelease strap => exact Host.Outcome.next.inj e ▸ K.resetRelease h strap
    | dividerTerminalCount reads => exact Host.Outcome.next.inj e ▸ S.terminalCount reads (S.settle h)
    | wordClockEdge edge =>
      have ready : (settle s).resetLine = true ∧ P { settle s with mclkStopped := edge.stopped } ∨
          Q { settle s with mclkStopped := edge.stopped } :=
        (S.settle h).imp (And.imp_right (K.unseen (by rfl))) (S.settled.unseen (by rfl))
      exact Host.Outcome.next.inj e ▸ S.wordClockEdge edge.reads ready
    | wordClockLoss => exact Host.Outcome.next.inj e ▸ K.wordClockLoss h
    | lossCondition => exact Host.Outcome.next.inj e ▸ K.lossCondition h
    | returnPeriodGood => exact Host.Outcome.next.inj e ▸ K.returnGood h
    | blockEvent mute cuesFirst => exact Host.Outcome.next.inj e ▸ K.blockEvent h mute cuesFirst
    | startupEnd => exact Host.Outcome.next.inj e ▸ K.startupEnd h
    | wordParityFault word =>
      simp only [exec, execWordParityFault] at e
      split at e
      · exact Host.Outcome.next.inj e ▸ K.mem (fun ok => Memory.spoil_wf _ ok) h
      · cases e
    | laneBlockBegin x l v => exact Host.Outcome.next.inj e ▸ K.laneBegin h x l v
    | laneBlockArrive x l bytes => exact Host.Outcome.next.inj e ▸ K.laneArrive h x l bytes
    | laneBlockAbandon x l => exact Host.Outcome.next.inj e ▸ K.laneAbandon h x l
    | paceWindowExpiry x => exact Host.Outcome.next.inj e ▸ K.paceExpiry h x
    | burstWindowExpiry x => exact Host.Outcome.next.inj e ▸ K.burstExpiry h x
    | watchPeriodClose x => exact Host.Outcome.next.inj e ▸ K.watchClose h x
    | stopOnAirTake r => exact Host.Outcome.next.inj e ▸ K.stopTake h r
    | transitionEnd => exact Host.Outcome.next.inj e ▸ K.transitionEnd h
    | onairTake => exact Host.Outcome.next.inj e ▸ K.onairTake h
    | sceneCopy => exact Host.Outcome.next.inj e ▸ K.serveCopy h
    | take => exact Host.Outcome.next.inj e ▸ K.serveTake h
    | rampEnd input output => exact Host.Outcome.next.inj e ▸ K.endRamp h input output
    | duckEnd k => exact Host.Outcome.next.inj e ▸ K.duckEnd h k
    | generalCall bytes => exact Host.Outcome.next.inj e ▸ K.takeCall h bytes
    | flushComplete => exact Host.Outcome.next.inj e ▸ K.flushComplete h
    | frameFormatError addr bytes => exact K.formatError h e
    | busStall addr dir bytes => exact Host.Outcome.next.inj e ▸ K.busStall h addr dir bytes
    | _ => cases hf

/-- A step keeps what the moves keep: the induction of every invariant. The queue is no part of any of them. -/
theorem step_keeps {P Q : State → Prop} (K : KeptByCommands P) (S : KeptBySamples P Q)
    (queue : ∀ {s : State} (l : List Instr), P s → P { s with pending := l }) {s t : State} (h : P s)
    (e : step s = .next t) : P t := by
  unfold step at e
  split at e
  · exact Host.Outcome.next.inj e ▸ S.tick h
  next c rest _ => exact exec_keeps K S (queue rest h) e

end Sys2Proof.Machine
end

section
/-!
O54, O56 and O57: sample memory, the mute gains, the cue list, the scene store and the house clock unit. None of these
properties sees the feeds, the selector or the notice unit.
-/

namespace Sys2Proof.Machine

open Sys2Proof

/-! ## Properties that do not see the feeds, the selector and the notice unit -/

/-- A placement writes sample memory; outside the feeds and the notice unit it changes nothing else (R14, R38). -/
theorem placed_outside (x : Side) (l : Lane) (t : Nat) (valid ended : Bool) (samples : List Byte) (s : State) :
    ∃ m, (s.MemOk → State.MemOk { s with mem := m }) ∧
      (placed x l t valid ended samples s).outside = State.outside { s with mem := m } := by
  cases valid
  · exact ⟨s.mem, id, by simp [placed]⟩
  · refine ⟨(s.withSamples x l t samples).mem, fun ok => writeSamples_wf _ _ _ _ ok, ?_⟩
    simp only [placed, State.onFeed_outside, skewCheck_outside, placeSlot_outside, if_true]
    rfl

/-- A block that has arrived may write sample memory; outside the feeds and the notice unit it changes nothing else
(R16 to R22). -/
theorem judgeBlock_outside (x : Side) (l : Lane) (v : LaneHeader) (body : List Byte) (s : State) :
    ∃ m, (s.MemOk → State.MemOk { s with mem := m }) ∧
      (judgeBlock x l v body s).outside = State.outside { s with mem := m } := by
  have kept : ∃ m, (s.MemOk → State.MemOk { s with mem := m }) ∧ s.outside = State.outside { s with mem := m } :=
    ⟨s.mem, id, rfl⟩
  unfold judgeBlock
  dsimp only
  split
  · exact kept
  · split
    · split
      · split
        · exact kept
        · exact kept
        · split
          · exact placed_outside ..
          · exact kept
      · exact kept
    · split
      · exact placed_outside ..
      · exact kept

section Blind

variable {P : State → Prop} (blind : ∀ {s t : State}, t.outside = s.outside → P s → P t)
include blind

theorem KeptByEvents.of_outside (unseen : ∀ {s t : State}, t.seen = s.seen → P s → P t)
    (clock : ∀ {s : State} {c : Clock}, s.clock.Moves c → P s → P { s with clock := c })
    (mem : ∀ {s : State} {m : Memory}, (s.MemOk → State.MemOk { s with mem := m }) → P s → P { s with mem := m })
    (outs : ∀ {s : State} {os : List OutRec}, (s.GainsOk → State.GainsOk { s with outs := os }) → P s →
      P { s with outs := os })
    (cues : ∀ {s : State} {cs : List Cue}, (s.CuesOk → State.CuesOk { s with cues := cs }) → P s → P { s with cues := cs })
    (scene : ∀ {s : State} {v : Scene}, (s.SceneOk → State.SceneOk { s with scene := v }) → P s →
      P { s with scene := v }) : KeptByEvents P where
  unseen := unseen
  clock := clock
  mem := mem
  outs := outs
  cues := cues
  scene := scene
  raise k d h := blind (raise_outside k d _) h
  units _ h := blind (State.setFeed_outside ..) h
  awaiting _ h := blind (by rfl) h
  caughtUp h := blind (caughtUp_outside _) h
  loss x h := blind (lossTaken_outside x _) h
  stopOnAir handover _ _ h := blind (stopOnAir_outside _ handover _) h
  ended reason _ h := blind (completeFeed_outside _ reason _) h
  onairSteps feed h := blind (onairSteps_outside feed _) h
  underrun x h := blind (State.onFeed_outside _ x _) h
  servo h := blind (servoStep_outside _) h
  alignment h := blind (judgeAlignment_outside _) h
  primed h := blind (takePrimed_outside _) h

theorem KeptByCommands.of_outside (events : KeptByEvents P)
    (clockset : ∀ {s : State} {source : ClockSource} {house : Rate} {n : Nat}, 31 ≤ n → n ≤ 255 →
      (house = s.clock.rateClass ∨ s.classFree = true) → P s → P { s with clock := s.clock.set source house n })
    (powerOn : ∀ {s : State} (strap : Bool), P s → P (Machine.powerOn strap s))
    (resetAssert : ∀ {s : State}, P s → P (Machine.resetAssert s)) : KeptByCommands P where
  toKeptByEvents := events
  judgeBlock {s} x l v body h := by
    obtain ⟨m, kept, same⟩ := judgeBlock_outside x l v body s
    exact blind same (events.mem kept h)
  feedset _ _ h := blind (State.onFeed_outside ..) h
  takePlay _ _ h := blind (State.onFeed_outside ..) h
  holdPlay _ _ h := blind (State.onFeed_outside ..) h
  dropPlay _ h := blind (State.onFeed_outside ..) h
  acknowledged _ h := blind (State.onFeed_outside ..) h
  policy _ _ h := blind (by rfl) h
  clockset least most free h := blind (by rfl) (clockset least most free h)
  partition _ _ _ _ h := blind (by rfl) h
  flushed h := blind (by rfl) h
  fetched _ h := blind (by rfl) h
  routed _ h := blind (by rfl) h
  powerOn := powerOn
  resetAssert := resetAssert

theorem KeptBySamples.of_outside (events : KeptByEvents P) : KeptBySamples P P where
  events := events
  settled := events
  weaken := id
  caughtUp := events.caughtUp
  inherit h := blind (inheritRatio_outside _) h
  program va vb h := blind (by simp [programStep]) h

end Blind

/-! ## O54 -/

theorem State.MemOk.blind {s t : State} (e : t.outside = s.outside) (h : s.MemOk) : t.MemOk := by
  rwa [State.MemOk, State.mem_of_outside e]

theorem memOk_events : KeptByEvents State.MemOk := by
  refine .of_outside .blind (fun {s t} e h => ?_) (fun _ h => h) (fun kept h => kept h) (fun _ h => h) (fun _ h => h)
    fun _ h => h
  rwa [State.MemOk, State.mem_of_seen e]

theorem memOk_commands : KeptByCommands State.MemOk :=
  .of_outside .blind memOk_events (fun _ _ _ h => h) (fun _ _ => rfl) fun h => h

theorem State.GainsOk.blind {s t : State} (e : t.outside = s.outside) (h : s.GainsOk) : t.GainsOk := by
  rwa [State.GainsOk, State.outs_of_outside e]

theorem gainsOk_events : KeptByEvents State.GainsOk := by
  refine .of_outside .blind (fun {s t} e h => ?_) (fun _ h => h) (fun _ h => h) (fun kept h => kept h) (fun _ h => h)
    fun _ h => h
  rwa [State.GainsOk, State.outs_of_seen e]

theorem gainsOk_reset : ∀ o ∈ List.replicate 64 outReset, o.GainOk := by
  intro o ho
  obtain rfl := List.eq_of_mem_replicate ho
  decide

theorem gainsOk_commands : KeptByCommands State.GainsOk :=
  .of_outside .blind gainsOk_events (fun _ _ _ h => h) (fun _ _ => gainsOk_reset) fun _ => gainsOk_reset

theorem State.CuesOk.blind {s t : State} (e : t.outside = s.outside) (h : s.CuesOk) : t.CuesOk := by
  rwa [State.CuesOk, State.cues_of_outside e]

theorem cuesOk_events : KeptByEvents State.CuesOk := by
  refine .of_outside .blind (fun {s t} e h => ?_) (fun _ h => h) (fun _ h => h) (fun _ h => h) (fun kept h => kept h)
    fun _ h => h
  rwa [State.CuesOk, State.cues_of_seen e]

theorem cuesOk_commands : KeptByCommands State.CuesOk :=
  .of_outside .blind cuesOk_events (fun _ _ _ h => h) (fun _ _ => ⟨Nat.zero_le _, .nil⟩) fun _ => ⟨Nat.zero_le _, .nil⟩

/-- Settles O54: each store's property is kept by every move. -/
theorem stepKeepsStores : Obligations.StepKeepsStores :=
  ⟨fun _ _ => step_keeps memOk_commands (.of_outside .blind memOk_events) fun _ h => h,
    fun _ _ => step_keeps gainsOk_commands (.of_outside .blind gainsOk_events) fun _ h => h,
    fun _ _ => step_keeps cuesOk_commands (.of_outside .blind cuesOk_events) fun _ h => h⟩

/-! ## O56 -/

/-- The banks and routes see the scene store and the house rate class alone. -/
theorem State.SceneOk.of_same {s t : State} (h : s.SceneOk) (scene : t.scene = s.scene)
    (house : t.clock.rateClass = s.clock.rateClass) : t.SceneOk := by
  unfold State.SceneOk State.BanksOk State.PendingOk State.ActiveOk State.RoutesOk at *
  rwa [scene, house]

theorem sceneOk_blind {s t : State} (e : t.outside = s.outside) (h : s.SceneOk) : t.SceneOk :=
  h.of_same (State.scene_of_outside e) (by rw [State.clock_of_outside e])

theorem sceneOk_events : KeptByEvents State.SceneOk :=
  .of_outside sceneOk_blind (fun e h => h.of_same (State.scene_of_seen e) (by rw [State.clock_of_seen e]))
    (fun move h => h.of_same rfl move.rateClass) (fun _ h => h.of_same rfl rfl) (fun _ h => h.of_same rfl rfl)
    (fun _ h => h.of_same rfl rfl) fun kept h => kept h

@[simp] theorem Clock.set_rateClass (c : Clock) (source : ClockSource) (house : Rate) (n : Nat) :
    (c.set source house n).rateClass = house := by
  unfold Clock.set
  split <;> rfl

/-- A class changes with both banks empty alone (R11). -/
theorem sceneOk_clockset {s : State} {source : ClockSource} {house : Rate} {n : Nat}
    (free : house = s.clock.rateClass ∨ s.classFree = true) (h : s.SceneOk) :
    State.SceneOk { s with clock := s.clock.set source house n } := by
  obtain rfl | free := free
  · exact h.of_same rfl (Clock.set_rateClass ..)
  · simp only [State.classFree, Bool.and_eq_true, List.isEmpty_iff, beq_iff_eq] at free
    obtain ⟨⟨⟨active, unsealed⟩, -⟩, -⟩ := free
    have empty : s.scene.pendingBank = [] := h.1.1.2.2.1 unsealed
    exact .cleared { s with clock := s.clock.set source house n } s.scene active empty fun k => by simp [unsealed]

theorem sceneReset_ok {s : State} (h : s.scene = sceneReset) : s.SceneOk := by
  have cleared := State.SceneOk.cleared s s.scene (by simp [h, sceneReset]) (by simp [h, sceneReset]) fun k => by
    simp [h, sceneReset]
  exact cleared

theorem sceneOk_commands : KeptByCommands State.SceneOk :=
  .of_outside sceneOk_blind sceneOk_events (fun _ _ => sceneOk_clockset) (fun _ _ => sceneReset_ok rfl) fun _ =>
    sceneReset_ok rfl

/-- Settles O56: every move of the scene store keeps the banks and the routes in order. -/
theorem stepKeepsBanks : Obligations.StepKeepsBanks := fun _ _ banks routes =>
  step_keeps sceneOk_commands (.of_outside sceneOk_blind sceneOk_events) (fun _ h => h) ⟨banks, routes⟩

/-! ## O57 -/

/-- The good-period count that a state of the return watch allows (R5). -/
def ReturnWatch.Allows (good : Nat) : ReturnWatch → Prop
  | .idle => good = 0
  | .counting _ => good ≤ 1
  | .waiting => good = 2

theorem ReturnWatch.Allows.counted {good : Nat} {w : ReturnWatch} (h : w.Allows good) : w.counted.Allows good := by
  cases w <;> exact h

/-- Every move of the house clock unit stays within its table (spec/01). -/
theorem Clock.Moves.ok {c d : Clock} (move : c.Moves d) (h : c.Ok) : d.Ok := by
  obtain ⟨source, nLeast, nMost, lLeast, lMost, count, measure, page, scrubbed, idle, watch⟩ := h
  replace watch : c.watch.Allows c.good := watch
  cases move with
  | restarted =>
    exact ⟨source, nLeast, nMost, nLeast, nMost, show 0 < _ by omega, measure, page, scrubbed, idle, watch⟩
  | counted fits => exact ⟨source, nLeast, nMost, lLeast, lMost, fits, measure, page, scrubbed, idle, watch⟩
  | sampled =>
    refine ⟨source, nLeast, nMost, lLeast, lMost, count, measure, page, scrubbed, fun apart => ?_, ?_⟩
    · simpa [Clock.sampled, show c.state ≠ .holdover from apart] using idle apart
    · unfold Clock.sampled
      show ReturnWatch.Allows c.good (if _ then _ else _)
      split
      · exact watch.counted
      · exact watch
  | shown => exact ⟨source, nLeast, nMost, lLeast, lMost, count, measure, page, scrubbed, idle, watch⟩
  | edgeInHoldover held at_ =>
    refine ⟨source, nLeast, nMost, lLeast, lMost, count, show 0 < 2048 by decide, page, scrubbed,
      fun apart => absurd at_ apart, ?_⟩
    unfold Clock.edgeInHoldover
    show ReturnWatch.Allows c.good (if _ then _ else _)
    split
    next atRest =>
      rw [atRest.1] at watch
      exact Nat.le_trans (Nat.le_of_eq watch) (Nat.zero_le 1)
    · exact watch
  | edgeInFollowing =>
    exact ⟨source, nLeast, nMost, nLeast, nMost, show 0 < _ by omega, show 0 < 2048 by decide, page, scrubbed, idle,
      watch⟩
  | measured fits => exact ⟨source, nLeast, nMost, lLeast, lMost, count, fits, page, scrubbed, idle, watch⟩
  | measureFull =>
    exact ⟨source, nLeast, nMost, lLeast, lMost, count, show 0 < 2048 by decide, page, scrubbed, idle, watch⟩
  | lost at_ =>
    have external : c.source ≠ .internal := fun e => by simpa [at_] using source.mp e
    exact ⟨⟨fun e => absurd e external, fun e => by cases e⟩, nLeast, nMost, lLeast, lMost, count, measure, page,
      scrubbed, fun _ => rfl, rfl⟩
  | lossCondition at_ =>
    unfold Clock.lossCondition
    split
    · exact ⟨source, nLeast, nMost, lLeast, lMost, count, measure, page, scrubbed, idle, watch⟩
    · exact ⟨source, nLeast, nMost, lLeast, lMost, count, measure, page, scrubbed, fun _ => rfl, rfl⟩
  | periodGood at_ full =>
    refine ⟨source, nLeast, nMost, lLeast, lMost, count, measure, page, scrubbed, fun apart => absurd at_ apart, ?_⟩
    cases e : c.watch with
    | idle => simp [e, ReturnWatch.full] at full
    | waiting => simp [e, ReturnWatch.full] at full
    | counting k =>
      have least : c.good ≤ 1 := by rwa [e] at watch
      unfold Clock.periodGood
      show ReturnWatch.Allows (min (c.good + 1) 2) (if _ then _ else _)
      split
      · show min (c.good + 1) 2 ≤ 1
        omega
      · show min (c.good + 1) 2 = 2
        omega
  | returned due =>
    simp only [Clock.returnDue, Bool.and_eq_true, beq_iff_eq] at due
    have external : c.source ≠ .internal := fun e => by simpa [due.1] using source.mp e
    exact ⟨⟨fun e => absurd e external, fun e => by cases e⟩, nLeast, nMost, lLeast, lMost, count,
      show 0 < 2048 by decide, page, scrubbed, fun _ => rfl, rfl⟩
  | scrubbed left =>
    refine ⟨source, nLeast, nMost, lLeast, lMost, count, measure, left, fun run => ?_, idle, watch⟩
    exact absurd (scrubbed run) (Nat.ne_of_lt left)
  | started done =>
    exact ⟨source, nLeast, nMost, lLeast, lMost, count, measure, page, fun _ => Nat.le_antisymm page done, idle, watch⟩

/-- The house clock unit with a source, class and N taken (R11). -/
theorem Clock.Ok.set {c : Clock} (h : c.Ok) {source : ClockSource} {house : Rate} {n : Nat} (least : 31 ≤ n)
    (most : n ≤ 255) : (c.set source house n).Ok := by
  obtain ⟨agree, -, -, lLeast, lMost, count, measure, page, scrubbed, idle, watch⟩ := h
  unfold Clock.set
  split
  · exact ⟨by simp, least, most, lLeast, lMost, count, measure, page, scrubbed, fun _ => rfl, rfl⟩
  · exact ⟨by simp, least, most, lLeast, lMost, count, measure, page, scrubbed, fun _ => rfl, rfl⟩
  · exact ⟨agree, least, most, lLeast, lMost, count, measure, page, scrubbed, idle, watch⟩

/-- The house clock unit under the RESET line (R13). -/
theorem Clock.Ok.lineReset {c : Clock} (h : c.Ok) : c.lineReset.Ok := by
  obtain ⟨source, nLeast, nMost, lLeast, lMost, count, measure, -⟩ := h
  exact ⟨source, nLeast, nMost, lLeast, lMost, count, measure, Nat.zero_le _, nofun, fun _ => rfl, rfl⟩

theorem clockPowerOn_ok : clockPowerOn.Ok := by
  refine ⟨by decide, by decide, by decide, by decide, by decide, by decide, by decide, by decide, nofun, fun _ => rfl, ?_⟩
  rfl

/-- The house clock unit of the state is within its table. -/
abbrev State.ClockOk (s : State) : Prop := s.clock.Ok

theorem State.ClockOk.blind {s t : State} (e : t.outside = s.outside) (h : s.ClockOk) : t.ClockOk := by
  rwa [State.ClockOk, State.clock_of_outside e]

theorem clockOk_events : KeptByEvents State.ClockOk := by
  refine .of_outside .blind (fun {s t} e h => ?_) (fun move h => move.ok h) (fun _ h => h) (fun _ h => h) (fun _ h => h)
    fun _ h => h
  rwa [State.ClockOk, State.clock_of_seen e]

theorem clockOk_commands : KeptByCommands State.ClockOk :=
  .of_outside .blind clockOk_events (fun least most _ h => h.set least most) (fun _ _ => clockPowerOn_ok) fun h =>
    h.lineReset

/-- Settles O57: every move of the house clock unit stays within its table. -/
theorem stepKeepsClock : Obligations.StepKeepsClock := fun _ _ =>
  step_keeps clockOk_commands (.of_outside .blind clockOk_events) fun _ h => h

end Sys2Proof.Machine
end

section
/-!
O55: the notice queues and the alert lines. The feeds, the resamplers and the selector reach the notice unit through
raised notices alone (R180), so a property that every routed notice keeps survives each of their operations.
-/

namespace Sys2Proof.Machine

open Sys2Proof

/-! ## The program's operations and the notice unit (R180) -/

section Keeps

variable {P : Notices → Prop} (hP : ∀ u k d t, P u → P (Notices.route u k d t)) {s : State} (h : P s.notices)
include hP h

theorem raiseIf_keeps (c : Bool) (k : Kind) (d : List Byte) : P (raiseIf c k d s).notices := by
  cases c
  · exact h
  · exact raise_keeps hP h k d

omit hP in
/-- A fold of steps that raise notices alone. -/
theorem foldl_raises {α : Type} {f : State → α → State} (hf : ∀ u a, P u.notices → P (f u a).notices) (l : List α) :
    P (l.foldl f s).notices :=
  foldl_keeps (P := fun u => P u.notices) hf l h

theorem failover_keeps (x : Side) : P (failover x s).notices := by
  unfold failover
  split
  · split <;> exact raise_keeps hP h _ _
  · exact h

theorem fadeBack_keeps (x : Side) (reason : Reason) : P (fadeBack x reason s).notices := by
  unfold fadeBack
  split
  · exact enterSilent_keeps hP (completeFeed_keeps hP (s := setEnding x reason s) h x reason) _ _
  · exact h

theorem lossTaken_keeps (x : Side) : P (lossTaken x s).notices := by
  unfold lossTaken
  split
  · exact completeFeed_keeps hP h ..
  · exact completeFeed_keeps hP h ..
  · split
    · exact completeFeed_keeps hP h ..
    · unfold selectorLoss
      split
      · split
        · exact failover_keeps hP h x
        · exact h
      · split
        · exact fadeBack_keeps hP h ..
        · exact h
      · split <;> exact h
      · exact h
  · exact h

theorem stopOnAir_keeps (x : Side) (handover : Bool) : P (stopOnAir x handover s).2.notices := by
  unfold stopOnAir
  split
  · split <;> exact h
  · exact fadeBack_keeps hP h ..
  · split <;> exact h
  · exact h

omit hP in
theorem onairSteps_keeps (feed : Nat) : P (onairSteps feed s).2.notices := by
  unfold onairSteps
  split
  · exact h
  · split
    · exact h
    · exact h
    · exact h
    · split
      · exact h
      · split <;> exact h
    · split
      · split <;> exact h
      · exact h

theorem setAligned_keeps (y : Side) (v : Bool) : P (setAligned y v s).notices :=
  raiseIf_keeps hP (s := s.onSel fun u => { u with aligned := v }) h _ _ _

theorem judgeAlignment_keeps : P (judgeAlignment s).notices := by
  unfold judgeAlignment
  split
  · split
    · exact h
    · exact setAligned_keeps hP h ..
  · exact h

omit hP in
theorem takePrimed_keeps : P (takePrimed s).notices := by
  unfold takePrimed
  split
  · split <;> exact h
  · split <;> exact h
  · split <;> exact h
  · exact h

theorem servoStep_keeps : P (servoStep s).notices := by
  unfold servoStep
  split
  · exact h
  next x _ =>
    dsimp only
    split
    · exact raiseIf_keeps hP (s := s.setFeed x _) h _ _ _
    · exact h

theorem noteUnderrun_keeps : P (noteUnderrun s).notices := by
  unfold noteUnderrun
  split
  · exact h
  next x _ =>
    split
    · exact h
    · split
      · exact raise_keeps hP (s := s.onFeed x _) h _ _
      · exact h

theorem markFails_keeps (fails : List RingFail) : P (markFails fails s).notices :=
  foldl_raises h (fun u e hu => raise_keeps hP (s := damageSlot e u) hu _ _) fails

theorem riseUnaligns_keeps : P (riseUnaligns s).notices := by
  unfold riseUnaligns
  split
  · split
    · exact setAligned_keeps hP h ..
    · exact h
  · exact h

omit hP in
theorem advancePositions_keeps : P (advancePositions s).notices := by
  unfold advancePositions
  split <;> exact h

theorem completeWith_keeps (x : Side) (reason : Reason) : P (completeWith x reason s).notices := by
  unfold completeWith
  split
  · exact completeFeed_keeps hP h ..
  · exact completeFeed_keeps hP h ..
  · exact h

theorem standbyEnds_keeps (x : Side) : P (standbyEnds x s).notices := by
  unfold standbyEnds
  split
  · exact completeFeed_keeps hP h ..
  · exact h

theorem takeEnds_keeps : P (takeEnds s).notices := by
  unfold takeEnds
  split
  · exact standbyEnds_keeps hP (standbyEnds_keeps hP h .a) .b
  · split
    · exact enterSilent_keeps hP (completeWith_keeps hP (completeFeed_keeps hP h ..) ..) _ _
    · exact standbyEnds_keeps hP h _

theorem programStep_keeps (va vb : List ReadResult) : P (programStep va vb s).notices :=
  takeEnds_keeps hP (s := State.onSel _ _) (markFails_keeps hP
    (riseUnaligns_keeps hP (advancePositions_keeps (noteUnderrun_keeps hP h))) _)

omit hP in
theorem inheritRatio_keeps : P (inheritRatio s).notices := by
  unfold inheritRatio
  split
  · split <;> exact h
  · exact h

theorem placeSlot_keeps (x : Side) (l : Lane) (t : Nat) (valid : Bool) : P (placeSlot x l t valid s).notices := by
  unfold placeSlot
  dsimp only
  split
  · exact raiseIf_keeps hP (raiseIf_keeps hP (s := s.setFeed x _) h _ _ _) _ _ _
  · exact raiseIf_keeps hP (raiseIf_keeps hP (s := s.setFeed x _) h _ _ _) _ _ _

theorem skewCheck_keeps (x : Side) (l : Lane) (t : Nat) : P (skewCheck x l t s).notices := by
  unfold skewCheck
  split
  · exact foldl_raises h (fun u t hu => raise_keeps hP (s := u.onFeed x _) hu _ _) _
  · exact h

theorem placed_keeps (x : Side) (l : Lane) (t : Nat) (valid ended : Bool) (samples : List Byte) :
    P (placed x l t valid ended samples s).notices := by
  have written : P (if valid then s.withSamples x l t samples else s).notices := by split <;> exact h
  exact skewCheck_keeps hP (s := State.onFeed _ x _) (placeSlot_keeps hP written x l t valid) x l t

theorem judgeBlock_keeps (x : Side) (l : Lane) (v : LaneHeader) (body : List Byte) :
    P (judgeBlock x l v body s).notices := by
  unfold judgeBlock
  dsimp only
  split
  · exact h
  · split
    · split
      · split
        · exact h
        · exact raise_keeps hP h _ _
        · split
          · exact placed_keeps hP h ..
          · exact h
      · exact h
    · split
      · exact placed_keeps hP h ..
      · exact h

end Keeps

/-! ## Properties of the notice unit -/

section OfNotices

variable {P : Notices → Prop} (hP : ∀ u k d t, P u → P (Notices.route u k d t))
include hP

theorem KeptByEvents.of_notices : KeptByEvents fun s => P s.notices where
  unseen e h := by rwa [State.notices_of_seen e]
  clock _ h := h
  mem _ h := h
  outs _ h := h
  cues _ h := h
  scene _ h := h
  raise k d h := raise_keeps hP h k d
  units _ h := h
  awaiting _ h := h
  caughtUp h := caughtUp_keeps hP h
  loss x h := lossTaken_keeps hP h x
  stopOnAir handover _ _ h := stopOnAir_keeps hP h _ handover
  ended reason _ h := completeFeed_keeps hP h _ reason
  onairSteps feed h := onairSteps_keeps h feed
  underrun _ h := h
  servo h := servoStep_keeps hP h
  alignment h := judgeAlignment_keeps hP h
  primed h := takePrimed_keeps h

theorem KeptByCommands.of_notices (fetched : ∀ {u : Notices} (r : Role), P u → P (u.fetched r))
    (routed : ∀ {u : Notices} (map : List (Option Role)), P u → P { u with routing := map })
    (reset : P noticesReset) : KeptByCommands fun s => P s.notices where
  toKeptByEvents := .of_notices hP
  judgeBlock x l v body h := judgeBlock_keeps hP h x l v body
  feedset _ _ h := h
  takePlay _ _ h := h
  holdPlay _ _ h := h
  dropPlay _ h := h
  acknowledged _ h := h
  policy _ _ h := h
  clockset _ _ _ h := h
  partition _ _ _ _ h := h
  flushed h := h
  fetched r h := fetched r h
  routed map h := routed map h
  powerOn _ _ := reset
  resetAssert _ := reset

theorem KeptBySamples.of_notices : KeptBySamples (fun s => P s.notices) fun s => P s.notices where
  events := .of_notices hP
  settled := .of_notices hP
  weaken := id
  caughtUp h := caughtUp_keeps hP h
  inherit h := inheritRatio_keeps h
  program va vb h := programStep_keeps hP h va vb

end OfNotices

/-! ## A queue under a notice (R181) -/

/-- The record that a notice makes of a kind's record before it (R181). -/
def Notice.repeated (v : Notice) (detail : List Byte) (time : BitVec 32) : Notice :=
  { v with count := min (v.count + 1) 255, detail := detail, time := time }

theorem takeNotice_other {k : Kind} {detail : List Byte} {time : BitVec 32} {v : Notice} (hv : v.kind ≠ k)
    {q : List Notice} : v ∈ takeNotice k detail time q ↔ v ∈ q := by
  induction q with
  | nil =>
    simp only [takeNotice, List.mem_singleton, List.not_mem_nil, iff_false]
    rintro rfl
    exact hv rfl
  | cons w q ih =>
    rw [takeNotice]
    split
    next same =>
      have apart : v ≠ w := fun e => hv (e ▸ same)
      have apart' : v ≠ w.repeated detail time := fun e => hv (by rw [e]; exact same)
      simp only [List.mem_cons, apart, false_or]
      exact or_iff_right apart'
    · split
      · simp only [List.mem_cons, or_iff_right_iff_imp]
        rintro rfl
        exact absurd rfl hv
      · simp [ih]

theorem takeNotice_new {k : Kind} {detail : List Byte} {time : BitVec 32} {q : List Notice} (h : ∀ v ∈ q, v.kind ≠ k) :
    { kind := k, count := 1, detail := detail, time := time } ∈ takeNotice k detail time q ∧
      (takeNotice k detail time q).length = q.length + 1 := by
  induction q with
  | nil => simp [takeNotice]
  | cons w q ih =>
    obtain ⟨mem, len⟩ := ih fun v hv => h v (List.mem_cons_of_mem _ hv)
    rw [takeNotice, if_neg (h w List.mem_cons_self)]
    split
    · simp
    · exact ⟨List.mem_cons_of_mem _ mem, by simp [len]⟩

theorem takeNotice_again {k : Kind} {detail : List Byte} {time : BitVec 32} {q : List Notice} (rising : Rising q)
    {v : Notice} (hv : v ∈ q) (same : v.kind = k) :
    { kind := k, count := min (v.count + 1) 255, detail := detail, time := time } ∈ takeNotice k detail time q ∧
      (takeNotice k detail time q).length = q.length := by
  induction q with
  | nil => simp at hv
  | cons w q ih =>
    obtain ⟨first, rest⟩ := rising_cons.mp rising
    rw [takeNotice]
    obtain rfl | hv := List.mem_cons.mp hv
    · simp [same]
    · have after : w.kind.code < k.code := same ▸ first v hv
      have apart : w.kind ≠ k := fun e => absurd after (e ▸ Nat.lt_irrefl _)
      obtain ⟨mem, len⟩ := ih rest hv
      rw [if_neg apart, if_neg (Nat.not_lt.mpr after.le)]
      exact ⟨List.mem_cons_of_mem _ mem, by simp [len]⟩

/-- A record after a notice is one that stood, or its kind's with count 1 or one more (R181). -/
theorem mem_takeNotice {k : Kind} {detail : List Byte} {time : BitVec 32} {v : Notice} {q : List Notice}
    (h : v ∈ takeNotice k detail time q) : v ∈ q ∨ v.count = 1 ∨ ∃ w ∈ q, v.count = min (w.count + 1) 255 := by
  induction q with
  | nil =>
    obtain rfl := List.mem_singleton.mp h
    exact .inr (.inl rfl)
  | cons w q ih =>
    rw [takeNotice] at h
    split at h
    · obtain rfl | h := List.mem_cons.mp h
      · exact .inr (.inr ⟨w, List.mem_cons_self, rfl⟩)
      · exact .inl (List.mem_cons_of_mem _ h)
    · split at h
      · obtain rfl | h := List.mem_cons.mp h
        · exact .inr (.inl rfl)
        · exact .inl h
      · obtain rfl | h := List.mem_cons.mp h
        · exact .inl List.mem_cons_self
        · exact (ih h).imp (List.mem_cons_of_mem _) (Or.imp_right fun ⟨u, hu, e⟩ => ⟨u, List.mem_cons_of_mem _ hu, e⟩)

theorem QueueOk.takeNotice {q : List Notice} (h : QueueOk q) (k : Kind) (detail : List Byte) (time : BitVec 32) :
    QueueOk (takeNotice k detail time q) := by
  refine ⟨Rising.takeNotice h.1 k detail time, fun v hv => ?_⟩
  obtain hv | one | ⟨w, hw, more⟩ := mem_takeNotice hv
  · exact h.2 v hv
  · omega
  · omega

theorem takeNotice_ne_nil (k : Kind) (detail : List Byte) (time : BitVec 32) (q : List Notice) :
    takeNotice k detail time q ≠ [] := by
  cases q with
  | nil => simp [takeNotice]
  | cons v q =>
    rw [takeNotice]
    split
    · simp
    · split <;> simp

/-! ## O55 -/

/-- Every role's queue is well formed, and its alert line is low exactly while it is not empty (R181, R182). -/
def Notices.Ok (u : Notices) : Prop := ∀ r, QueueOk (u.queues.get r) ∧ u.alertLow.get r = !(u.queues.get r).isEmpty

theorem State.noticesOk_iff {s : State} : s.NoticesOk ↔ s.notices.Ok := by
  constructor
  · rintro ⟨⟨q0, q1, q2, q3⟩, l0, l1, l2, l3⟩ (_ | _ | _ | _)
    · exact ⟨q0, l0⟩
    · exact ⟨q1, l1⟩
    · exact ⟨q2, l2⟩
    · exact ⟨q3, l3⟩
  · intro h
    exact ⟨⟨(h .feedA).1, (h .feedB).1, (h .render).1, (h .system).1⟩, (h .feedA).2, (h .feedB).2, (h .render).2,
      (h .system).2⟩

theorem Notices.Ok.route {u : Notices} (h : u.Ok) (k : Kind) (d : List Byte) (t : BitVec 32) : (u.route k d t).Ok := by
  unfold Notices.route
  split
  next target _ =>
    intro r
    simp only [Notices.enter, PerRole.get_set]
    split
    · refine ⟨(h target).1.takeNotice k d t, ?_⟩
      rw [List.isEmpty_eq_false_iff.mpr (takeNotice_ne_nil _ _ _ _), Bool.not_false]
    · exact h r
  · exact h

theorem Notices.Ok.fetched {u : Notices} (h : u.Ok) (r : Role) : (u.fetched r).Ok := by
  intro q
  simp only [Notices.fetched, PerRole.get_set]
  split
  · obtain ⟨rising, counts⟩ := (h r).1
    exact ⟨⟨rising.sublist (List.tail_sublist _), fun v hv => counts v (List.mem_of_mem_tail hv)⟩, rfl⟩
  · exact h q

theorem noticesReset_ok : noticesReset.Ok := by
  rintro (_ | _ | _ | _) <;> exact ⟨⟨.nil, nofun⟩, rfl⟩

/-- A step keeps a property of the notice unit that routed and fetched notices and a new map keep. -/
theorem noticesOk_step {s t : State} (h : s.notices.Ok) (e : step s = .next t) : t.notices.Ok :=
  step_keeps (P := fun s => s.notices.Ok) (.of_notices (fun _ k d t hu => hu.route k d t) (fun r hu => hu.fetched r)
    (fun _ hu => hu) noticesReset_ok) (.of_notices fun _ k d t hu => hu.route k d t) (fun _ hu => hu) h e

/-- Settles O55: every operation reaches the notice unit through routed notices, which keep each queue's order. -/
theorem stepKeepsNotices : Obligations.StepKeepsNotices := by
  refine ⟨fun s t h e => State.noticesOk_iff.mpr (noticesOk_step (State.noticesOk_iff.mp h) e), ?_⟩
  intro q k detail time ok
  exact ⟨ok.takeNotice k detail time, fun v hv => takeNotice_other hv, takeNotice_new, fun v hv same =>
    takeNotice_again ok.1 hv same⟩

end Sys2Proof.Machine
end

section
/-!
O58: the rings. What intake needs of a feed is its setup, ring, head, start position and pending PLAY; the resamplers
and the selector change none of it.
-/

namespace Sys2Proof.Machine

open Sys2Proof

/-! ## Properties of the feeds and the selector -/

/-- A property that sees the feeds and the selector alone survives each move elsewhere. -/
structure SeesProgram (P : State → Prop) : Prop where
  blind {s t : State} : t.feedA = s.feedA → t.feedB = s.feedB → t.sel = s.sel → P s → P t
  units {s : State} {x : Side} {f : Feed} : f.core = (s.feed x).core → P s → P (s.setFeed x f)
  awaiting {s : State} (l : List Awaiting) : P s → P { s with sel := { s.sel with awaiting := l } }
  caughtUp {s : State} : P s → P (caughtUp s)
  loss {s : State} (x : Side) : P s → P (lossTaken x s)
  stopOnAir {s : State} {x : Side} (handover : Bool) :
    (s.feed x).st = .running → (s.feed x).role = .leader ∨ (s.feed x).role = .outgoing → P s →
      P (stopOnAir x handover s).2
  ended {s : State} {x : Side} (reason : Reason) :
    (s.feed x).st = .seeking ∨ (s.feed x).st = .primed ∨
        (s.feed x).st = .running ∧ ¬ ((s.feed x).role = .leader ∨ (s.feed x).role = .outgoing) →
      P s → P (completeFeed x reason s)
  onairSteps {s : State} (feed : Nat) : P s → P (onairSteps feed s).2
  underrun {s : State} (x : Side) : P s → P (s.onFeed x Feed.clearUnderrun)
  servo {s : State} : P s → P (servoStep s)
  alignment {s : State} : P s → P (judgeAlignment s)
  primed {s : State} : P s → P (takePrimed s)

theorem SeesProgram.events {P : State → Prop} (K : SeesProgram P) : KeptByEvents P where
  unseen e h := K.blind (State.feedA_of_seen e) (State.feedB_of_seen e) (State.sel_of_seen e) h
  clock _ h := K.blind (by rfl) (by rfl) (by rfl) h
  mem _ h := K.blind (by rfl) (by rfl) (by rfl) h
  outs _ h := K.blind (by rfl) (by rfl) (by rfl) h
  cues _ h := K.blind (by rfl) (by rfl) (by rfl) h
  scene _ h := K.blind (by rfl) (by rfl) (by rfl) h
  raise _ _ h := K.blind (by rfl) (by rfl) (by rfl) h
  units := K.units
  awaiting := K.awaiting
  caughtUp := K.caughtUp
  loss := K.loss
  stopOnAir := K.stopOnAir
  ended := K.ended
  onairSteps := K.onairSteps
  underrun := K.underrun
  servo := K.servo
  alignment := K.alignment
  primed := K.primed

/-! ## What intake needs of a feed -/

/-- Setup, ring, head, start position and pending PLAY. -/
def Feed.placing (f : Feed) : Setup × List Slot × Nat × Nat × Option PlayParams :=
  (f.setup, f.ring, f.h, f.startPos, f.pendingPlay)

/-- What intake needs of both feeds. -/
def State.rings (s : State) : Side → Setup × List Slot × Nat × Nat × Option PlayParams := fun x => (s.feed x).placing

theorem State.setFeed_rings {s : State} {x : Side} {f : Feed} (h : f.placing = (s.feed x).placing) :
    (s.setFeed x f).rings = s.rings := by
  funext y
  simp only [State.rings, State.feed_setFeed]
  split
  next e => rw [h, e]
  · rfl

@[simp] theorem State.onFeed_rings {s : State} {x : Side} {g : Feed → Feed} (h : ∀ f, (g f).placing = f.placing) :
    (s.onFeed x g).rings = s.rings := State.setFeed_rings (h _)

@[simp] theorem State.onSel_rings (s : State) (g : Selector → Selector) : (s.onSel g).rings = s.rings := by
  funext x
  cases x <;> rfl

@[simp] theorem raise_rings (k : Kind) (d : List Byte) (s : State) : (raise k d s).rings = s.rings := by
  funext x
  cases x <;> rfl

@[simp] theorem raiseIf_rings (c : Bool) (k : Kind) (d : List Byte) (s : State) : (raiseIf c k d s).rings = s.rings := by
  funext x
  cases x <;> rfl

@[simp] theorem setRole_rings (x : Side) (role : ProgRole) (s : State) : (setRole x role s).rings = s.rings :=
  State.onFeed_rings fun _ => rfl

@[simp] theorem setEnding_rings (x : Side) (reason : Reason) (s : State) : (setEnding x reason s).rings = s.rings :=
  State.onFeed_rings fun _ => rfl

@[simp] theorem completeFeed_rings (x : Side) (reason : Reason) (s : State) :
    (completeFeed x reason s).rings = s.rings := by
  have same : (s.setFeed x ((s.feed x).completed reason)).rings = s.rings := State.setFeed_rings rfl
  simp [completeFeed, same]

@[simp] theorem beginXfade_rings (x : Side) (s : State) : (beginXfade x s).rings = s.rings := by simp [beginXfade]

@[simp] theorem beginFade_rings (x : Side) (cause : SilenceCause) (cold : Option Side) (s : State) :
    (beginFade x cause cold s).rings = s.rings := State.onSel_rings ..

@[simp] theorem beginRise_rings (x : Side) (s : State) : (beginRise x s).rings = s.rings :=
  (State.onSel_rings ..).trans (State.onFeed_rings fun _ => rfl)

@[simp] theorem enterSilent_rings (heard : Option Side) (cause : SilenceCause) (s : State) :
    (enterSilent heard cause s).rings = s.rings := by simp [enterSilent]

@[simp] theorem finishOutgoing_rings (x : Side) (s : State) : (finishOutgoing x s).rings = s.rings := by
  unfold finishOutgoing
  split
  · simp
  · split <;> simp
  · rfl

@[simp] theorem endTransition_rings (s : State) : (endTransition s).rings = s.rings := by
  unfold endTransition
  split
  · simp
  · split <;> simp
  · split
    · simp
    · exact (State.onSel_rings ..).trans ((State.onFeed_rings fun _ => by rfl).trans (completeFeed_rings ..))
  · rfl

@[simp] theorem caughtUp_rings (s : State) : (caughtUp s).rings = s.rings := by
  unfold caughtUp
  split
  · simp
  · rfl

@[simp] theorem fadeBack_rings (x : Side) (reason : Reason) (s : State) : (fadeBack x reason s).rings = s.rings := by
  unfold fadeBack
  split <;> simp

@[simp] theorem abandonXfade_rings (y : Side) (reason : Reason) (s : State) :
    (abandonXfade y reason s).rings = s.rings := by simp [abandonXfade]

@[simp] theorem failover_rings (x : Side) (s : State) : (failover x s).rings = s.rings := by
  unfold failover
  split
  · split <;> simp
  · simp

@[simp] theorem lossTaken_rings (x : Side) (s : State) : (lossTaken x s).rings = s.rings := by
  unfold lossTaken
  split
  · simp
  · simp
  · split
    · simp
    · unfold selectorLoss
      split
      · split <;> simp
      · split <;> simp
      · split <;> simp
      · rfl
  · rfl

@[simp] theorem stopOnAir_rings (x : Side) (handover : Bool) (s : State) : (stopOnAir x handover s).2.rings = s.rings := by
  unfold stopOnAir
  split
  · split <;> simp
  · simp
  · split <;> simp
  · rfl

@[simp] theorem onairSteps_rings (feed : Nat) (s : State) : (onairSteps feed s).2.rings = s.rings := by
  have moved (x : Side) : (s.onFeed x Feed.repositioned).rings = s.rings := State.onFeed_rings fun _ => rfl
  unfold onairSteps
  split
  · rfl
  · split
    · rfl
    · rfl
    · rfl
    · split
      · rfl
      · split <;> simp
    · split
      · rw [State.onSel_rings, beginRise_rings]
        split
        · rfl
        · exact moved _
      · rfl

@[simp] theorem setAligned_rings (y : Side) (v : Bool) (s : State) : (setAligned y v s).rings = s.rings := by
  simp [setAligned]

@[simp] theorem judgeAlignment_rings (s : State) : (judgeAlignment s).rings = s.rings := by
  unfold judgeAlignment
  split
  · split <;> simp
  · simp

@[simp] theorem takeStandby_rings (x : Side) (s : State) : (takeStandby x s).rings = s.rings :=
  (State.onSel_rings ..).trans (State.onFeed_rings fun _ => rfl)

@[simp] theorem takePrimed_rings (s : State) : (takePrimed s).rings = s.rings := by
  unfold takePrimed
  split
  · split <;> simp
  · split <;> simp
  · split <;> simp
  · rfl

@[simp] theorem servoStep_rings (s : State) : (servoStep s).rings = s.rings := by
  unfold servoStep
  split
  · rfl
  next x _ =>
    dsimp only
    split
    · exact (raiseIf_rings ..).trans (State.setFeed_rings rfl)
    · rfl

@[simp] theorem noteUnderrun_rings (s : State) : (noteUnderrun s).rings = s.rings := by
  unfold noteUnderrun
  split
  · rfl
  · split
    · rfl
    · split
      · exact (raise_rings ..).trans (State.onFeed_rings fun _ => rfl)
      · rfl

@[simp] theorem inheritRatio_rings (s : State) : (inheritRatio s).rings = s.rings := by
  unfold inheritRatio
  split
  · split
    · exact State.onFeed_rings fun _ => rfl
    · rfl
  · rfl

@[simp] theorem advancePositions_rings (s : State) : (advancePositions s).rings = s.rings := by
  have follows (u : State) (x : Side) (pos phase : Nat) : (u.onFeed x fun f => f.follow pos phase).rings = u.rings :=
    State.onFeed_rings fun _ => rfl
  unfold advancePositions
  split
  · rw [follows, follows]
  · rw [State.onSel_rings, follows]
    exact State.onFeed_rings fun _ => rfl

@[simp] theorem riseUnaligns_rings (s : State) : (riseUnaligns s).rings = s.rings := by
  unfold riseUnaligns
  split
  · split
    · simp
    · rfl
  · rfl

@[simp] theorem completeWith_rings (x : Side) (reason : Reason) (s : State) :
    (completeWith x reason s).rings = s.rings := by
  unfold completeWith
  split <;> simp

@[simp] theorem standbyEnds_rings (x : Side) (s : State) : (standbyEnds x s).rings = s.rings := by
  unfold standbyEnds
  split <;> simp

@[simp] theorem takeEnds_rings (s : State) : (takeEnds s).rings = s.rings := by
  unfold takeEnds
  split
  · simp
  · split <;> simp [leaderEnds]

/-! ## Rings under placement (R18 to R21) -/

/-- A slot's stamp is a multiple of 32, below a head and in its own slot (R18, R23). -/
def Slot.Fits (slots h k : Nat) (v : Slot) : Prop := ∀ t, v.stamp = some t → t % 32 = 0 ∧ t < h ∧ t / 32 % slots = k

/-- Every slot of a feed's ring fits below a head. -/
def Feed.FitsBelow (f : Feed) (h : Nat) : Prop :=
  ∀ (k : Nat) (v : Slot), f.ring[k]? = some v → v.Fits (2 ^ f.setup.dExp / 32) h k

theorem Feed.ringOk_iff {f : Feed} :
    f.RingOk ↔ f.setup.boundsOk = true ∧ f.ring.length = 2 ^ f.setup.dExp / 32 ∧ f.h % 32 = 0 ∧ f.h ≤ 2 ^ 40 ∧
      f.FitsBelow f.h := by
  refine and_congr_right fun _ => and_congr_right fun _ => and_congr_right fun _ => and_congr_right fun _ => ?_
  exact ⟨fun h k v hv t ht => h k v t hv ht, fun h k v t hv ht => h k v hv t ht⟩

theorem Feed.FitsBelow.raised {f : Feed} {h h' : Nat} (ok : f.FitsBelow h) (le : h ≤ h') : f.FitsBelow h' := by
  intro k v hv t ht
  obtain ⟨m, lt, own⟩ := ok k v hv t ht
  exact ⟨m, lt.trans_le le, own⟩

/-- A slot put at a stamp's place, that fits there. -/
theorem Feed.FitsBelow.setSlot {f : Feed} {h t : Nat} (ok : f.FitsBelow h) {v : Slot}
    (hv : v.Fits f.setup.slotCount h (t / 32 % f.setup.slotCount)) : (f.setSlot t v).FitsBelow h := by
  intro k w hw
  rw [Feed.setSlot, List.getElem?_set] at hw
  split at hw
  next own =>
    split at hw
    · obtain rfl := Option.some.inj hw
      exact own ▸ hv
    · cases hw
  · exact ok k w hw

/-- The slot that a stamp names keeps its stamp. -/
theorem Feed.FitsBelow.setSlot_same {f : Feed} {h : Nat} (ok : f.FitsBelow h) (t : Nat) {v : Slot}
    (same : v.stamp = (f.slotAt t).stamp) : (f.setSlot t v).FitsBelow h := by
  refine ok.setSlot fun u hu => ?_
  rw [same, Feed.slotAt, List.getD_eq_getElem?_getD] at hu
  cases e : f.ring[t / 32 % f.setup.slotCount]? with
  | none => simp [e, emptySlot] at hu
  | some w =>
    rw [e, Option.getD_some] at hu
    exact ok _ w e u hu

theorem Slot.fits_new {t slots h : Nat} (aligned : t % 32 = 0) (below : t < h) (state : SlotState) (got : LaneSet) :
    Slot.Fits slots h (t / 32 % slots) { stamp := some t, state := state, got := got } := by
  intro u hu
  obtain rfl := Option.some.inj hu
  exact ⟨aligned, below, rfl⟩

theorem pow_mod_32 {k : Nat} (h : 9 ≤ k) : 2 ^ k % 32 = 0 := by
  obtain ⟨j, rfl⟩ := Nat.exists_eq_add_of_le h
  rw [show 9 + j = 5 + (4 + j) by omega, pow_add]
  exact Nat.mul_mod_right 32 _

theorem Setup.dExp_of_boundsOk {u : Setup} (h : u.boundsOk = true) : 9 ≤ u.dExp := by
  simp only [Setup.boundsOk, Bool.and_eq_true, decide_eq_true_eq] at h
  exact h.1.1.1.2

/-- A gap's slots (R19). -/
theorem Feed.openGap_induct {Q : Feed → Prop} {f : Feed} {t : Nat} (h : Q f)
    (step : ∀ g k, Q g → k < (t - max f.h (t + 32 - f.setup.depth)) / 32 →
      Q (g.setSlot (max f.h (t + 32 - f.setup.depth) + 32 * k)
        { stamp := some (max f.h (t + 32 - f.setup.depth) + 32 * k), state := .missing, got := noLanes })) :
    Q (f.openGap t) := by
  unfold Feed.openGap
  dsimp only
  have run (l : List Nat) (hl : ∀ k ∈ l, k < (t - max f.h (t + 32 - f.setup.depth)) / 32) (g : Feed) (hg : Q g) :
      Q (l.foldl (fun g k => g.setSlot (max f.h (t + 32 - f.setup.depth) + 32 * k)
        { stamp := some (max f.h (t + 32 - f.setup.depth) + 32 * k), state := .missing, got := noLanes }) g) := by
    induction l generalizing g with
    | nil => exact hg
    | cons k l ih => exact ih (fun j hj => hl j (List.mem_cons_of_mem _ hj)) _ (step g k hg (hl k List.mem_cons_self))
  exact run _ (fun k hk => List.mem_range.mp hk) f h

/-- What a gap's entry leaves of a feed: everything but the ring's slots. -/
theorem Feed.openGap_kept (f : Feed) (t : Nat) :
    { f.openGap t with ring := f.ring } = f ∧ (f.openGap t).ring.length = f.ring.length := by
  refine Feed.openGap_induct (Q := fun g => { g with ring := f.ring } = f ∧ g.ring.length = f.ring.length) ⟨rfl, rfl⟩ ?_
  rintro g k ⟨same, len⟩ -
  exact ⟨same, (List.length_set ..).trans len⟩

theorem Feed.openGap_setup (f : Feed) (t : Nat) : (f.openGap t).setup = f.setup := by
  have same := congrArg Feed.setup (f.openGap_kept t).1
  exact same

/-- The gap's slots are MISSING with stamps below the new one, each in its own slot (R19). -/
theorem Feed.openGap_fits {f : Feed} {t : Nat} (ok : f.RingOk) (aligned : t % 32 = 0) (ahead : f.h ≤ t) :
    (f.openGap t).FitsBelow (t + 32) := by
  obtain ⟨bounds, -, head, -, fits⟩ := Feed.ringOk_iff.mp ok
  have depth : f.setup.depth % 32 = 0 := pow_mod_32 (Setup.dExp_of_boundsOk bounds)
  refine (Feed.openGap_induct (Q := fun g => g.setup = f.setup ∧ g.FitsBelow (t + 32))
    ⟨rfl, fits.raised (by omega)⟩ ?_).2
  rintro g k ⟨same, ok⟩ hk
  have start : max f.h (t + 32 - f.setup.depth) % 32 = 0 := by omega
  refine ⟨same, ok.setSlot (Slot.fits_new ?_ ?_ _ _)⟩
  · omega
  · omega

/-- A new block's slot: the head goes beyond its stamp (R19). -/
theorem Feed.RingOk.advanced {f : Feed} (ok : f.RingOk) {t : Nat} (aligned : t % 32 = 0) (ahead : f.h ≤ t)
    (range : t < 2 ^ 40) (state : SlotState) (got : LaneSet) :
    Feed.RingOk
      { (f.openGap t).setSlot t { stamp := some t, state := state, got := got } with h := t + 32 } := by
  obtain ⟨bounds, len, -⟩ := Feed.ringOk_iff.mp ok
  have same := f.openGap_setup t
  refine Feed.ringOk_iff.mpr ⟨same ▸ bounds, ?_, ?_, ?_, ?_⟩
  · show ((f.openGap t).ring.set _ _).length = 2 ^ (f.openGap t).setup.dExp / 32
    rw [List.length_set, (f.openGap_kept t).2, same, len]
  · show (t + 32) % 32 = 0
    omega
  · show t + 32 ≤ 2 ^ 40
    omega
  · have fits := (Feed.openGap_fits ok aligned ahead).setSlot
      (Slot.fits_new (state := state) (got := got) aligned (Nat.lt_add_of_pos_right (by decide)))
    exact fits

/-- A slot replaced by one of the same stamp (R20, R21, R42). -/
theorem Feed.RingOk.setSlot_same {f : Feed} (ok : f.RingOk) (t : Nat) {v : Slot} (same : v.stamp = (f.slotAt t).stamp) :
    (f.setSlot t v).RingOk := by
  obtain ⟨bounds, len, head, most, fits⟩ := Feed.ringOk_iff.mp ok
  exact Feed.ringOk_iff.mpr ⟨bounds, (List.length_set ..).trans len, head, most, fits.setSlot_same t same⟩

theorem Feed.fitsBelow_of_empty {f : Feed} {n : Nat} (empty : f.ring = List.replicate n emptySlot) (h : Nat) :
    f.FitsBelow h := by
  intro k v hv t ht
  rw [empty] at hv
  obtain rfl := List.eq_of_mem_replicate (List.mem_of_getElem? hv)
  cases ht

/-- An intake that is cleared (R23, R34). -/
theorem Feed.clearIntake_ringOk {f : Feed} (bounds : f.setup.boundsOk = true) {h0 : Nat} (head : h0 % 32 = 0)
    (most : h0 ≤ 2 ^ 40) : (f.clearIntake h0).RingOk :=
  Feed.ringOk_iff.mpr ⟨bounds, List.length_replicate, head, most, Feed.fitsBelow_of_empty rfl _⟩

/-! ## O58 -/

/-- A feed's ring, with its PLAYs' positions within five bytes (R49). -/
def Feed.Placeable (f : Feed) : Prop :=
  f.RingOk ∧ f.startPos < 2 ^ 40 ∧ ∀ v, f.pendingPlay = some v → v.pos < 2 ^ 40

theorem Feed.Placeable.of_placing {f g : Feed} (h : f.Placeable) (e : g.placing = f.placing) : g.Placeable := by
  simp only [Feed.placing, Prod.mk.injEq] at e
  obtain ⟨setup, ring, head, start, pend⟩ := e
  unfold Feed.Placeable Feed.RingOk at *
  rwa [setup, ring, head, start, pend]

theorem State.RingsOk.of_rings {s t : State} (h : s.RingsOk) (e : t.rings = s.rings) : t.RingsOk :=
  fun x => Feed.Placeable.of_placing (h x) (congrFun e x)

theorem State.RingsOk.setFeed {s : State} (h : s.RingsOk) {x : Side} {f : Feed} (hf : f.Placeable) :
    (s.setFeed x f).RingsOk := by
  intro y
  rw [State.feed_setFeed]
  split
  · exact hf
  · exact h y

theorem State.RingsOk.onFeed {s : State} (h : s.RingsOk) {x : Side} {g : Feed → Feed}
    (hg : (s.feed x).Placeable → (g (s.feed x)).Placeable) : (s.onFeed x g).RingsOk := h.setFeed (hg (h x))

theorem State.ringsOk_of_feeds {s : State} (a : s.feedA.Placeable) (b : s.feedB.Placeable) : s.RingsOk := by
  rintro (_ | _)
  · exact a
  · exact b

theorem placing_of_core {f g : Feed} (h : f.core = g.core) : f.placing = g.placing := by
  have k := congrArg Feed.placing h
  exact k

theorem ringsOk_program : SeesProgram State.RingsOk where
  blind ha hb _ h := h.of_rings (by funext x; cases x <;> simp [State.rings, ha, hb])
  units e h := h.of_rings (State.setFeed_rings (placing_of_core e))
  awaiting _ h := h.of_rings (by funext x; cases x <;> rfl)
  caughtUp h := h.of_rings (caughtUp_rings _)
  loss _ h := h.of_rings (lossTaken_rings ..)
  stopOnAir _ _ _ h := h.of_rings (stopOnAir_rings ..)
  ended _ _ h := h.of_rings (completeFeed_rings ..)
  onairSteps _ h := h.of_rings (onairSteps_rings ..)
  underrun _ h := h.of_rings (State.onFeed_rings fun _ => rfl)
  servo h := h.of_rings (servoStep_rings _)
  alignment h := h.of_rings (judgeAlignment_rings _)
  primed h := h.of_rings (takePrimed_rings _)

theorem State.RingsOk.raised {s : State} (h : s.RingsOk) (k : Kind) (d : List Byte) : (raise k d s).RingsOk :=
  h.of_rings (raise_rings ..)

theorem State.RingsOk.raisedIf {s : State} (h : s.RingsOk) (c : Bool) (k : Kind) (d : List Byte) :
    (raiseIf c k d s).RingsOk := h.of_rings (raiseIf_rings ..)

/-- A slot that is damaged keeps its stamp (R21, R42). -/
theorem State.RingsOk.damaged {s : State} (h : s.RingsOk) (x : Side) (t : Nat) (state : SlotState) :
    (s.onFeed x fun f => f.setSlot t { f.slotAt t with state := state }).RingsOk :=
  h.onFeed fun ⟨ring, rest⟩ => ⟨ring.setSlot_same t rfl, rest⟩

theorem State.RingsOk.damageNoted {s : State} (h : s.RingsOk) (x : Side) (t : Nat) (k : Kind) (d : List Byte) :
    (raise k d (s.onFeed x fun f => f.setSlot t { f.slotAt t with state := .damaged })).RingsOk :=
  (h.damaged x t .damaged).raised k d

theorem State.RingsOk.markFails {s : State} (h : s.RingsOk) (fails : List RingFail) : (markFails fails s).RingsOk := by
  unfold Machine.markFails
  refine foldl_keeps (P := State.RingsOk) (fun u e hu => ?_) fails h
  exact hu.damageNoted e.ring e.frame _ _

theorem State.RingsOk.placeSlot {s : State} (h : s.RingsOk) (x : Side) (l : Lane) {t : Nat} (aligned : t % 32 = 0)
    (range : t < 2 ^ 40) (valid : Bool) : (placeSlot x l t valid s).RingsOk := by
  unfold Machine.placeSlot
  dsimp only
  split
  next ahead =>
    refine ((h.setFeed ?_).raisedIf _ _ _).raisedIf _ _ _
    refine ⟨(h x).1.advanced aligned ahead range _ _, ?_⟩
    have kept := ((s.feed x).openGap_kept t).1
    have start := congrArg Feed.startPos kept
    have pend := congrArg Feed.pendingPlay kept
    obtain ⟨-, rest⟩ := h x
    show ((s.feed x).openGap t).startPos < _ ∧ ∀ v, ((s.feed x).openGap t).pendingPlay = some v → _
    exact ⟨start.trans_lt rest.1, fun v hv => rest.2 v (pend.symm.trans hv)⟩
  · have joined : Feed.Placeable ((s.feed x).setSlot t (((s.feed x).slotAt t).joined l valid)) :=
      ⟨(h x).1.setSlot_same t rfl, (h x).2⟩
    exact ((h.setFeed joined).raisedIf _ _ _).raisedIf _ _ _

theorem State.RingsOk.skewCheck {s : State} (h : s.RingsOk) (x : Side) (l : Lane) (t : Nat) :
    (skewCheck x l t s).RingsOk := by
  unfold Machine.skewCheck
  split
  · refine foldl_keeps (P := State.RingsOk) (fun u e hu => ?_) _ h
    exact hu.damageNoted x e _ _
  · exact h

@[simp] theorem Feed.markEnd_placing (f : Feed) (t : Nat) : (f.markEnd t).placing = f.placing := rfl

@[simp] theorem Feed.goodBlock_placing (f : Feed) (l : Lane) : (f.goodBlock l).placing = f.placing := rfl

@[simp] theorem Feed.primes_placing (f : Feed) : f.primes.placing = f.placing := rfl

@[simp] theorem Feed.paceSettled_placing (f : Feed) (before : Nat) (starting : Bool) :
    (f.paceSettled before starting).placing = f.placing := rfl

theorem State.RingsOk.placed {s : State} (h : s.RingsOk) (x : Side) (l : Lane) {t : Nat} (aligned : t % 32 = 0)
    (range : t < 2 ^ 40) (valid ended : Bool) (samples : List Byte) :
    (Machine.placed x l t valid ended samples s).RingsOk := by
  have written : (if valid then s.withSamples x l t samples else s).RingsOk := by
    split
    · exact h.of_rings (by funext y; cases y <;> rfl)
    · exact h
  have last := (written.placeSlot x l aligned range valid).of_rings
    (State.onFeed_rings (x := x) (g := fun f => f.setLast l (some t)) fun f => by cases l <;> rfl)
  refine (last.skewCheck x l t).of_rings (State.onFeed_rings fun f => ?_)
  rw [Feed.paceSettled_placing, Feed.primes_placing]
  split
  · rw [Feed.goodBlock_placing]
    split <;> rfl
  · split <;> rfl

theorem State.RingsOk.judgeBlock {s : State} (h : s.RingsOk) (x : Side) (l : Lane) (v : LaneHeader)
    (body : List Byte) : (judgeBlock x l v body s).RingsOk := by
  have range : v.stamp.toNat < 2 ^ 40 := v.stamp.isLt
  have aligned (fresh : (s.feed x).stampFresh l v.stamp.toNat = true) : v.stamp.toNat % 32 = 0 := by
    simp only [Feed.stampFresh, Bool.and_eq_true, beq_iff_eq] at fresh
    exact fresh.1
  unfold Machine.judgeBlock
  dsimp only
  split
  · exact h
  · split
    · split
      next c =>
        split
        · exact h
        · exact h.raised _ _
        · split
          · exact h.placed x l (aligned c.2.2) range _ _ _
          · exact h
      · exact h
    · split
      next c =>
        simp only [Bool.and_eq_true] at c
        exact h.placed x l (aligned c.1.1) range _ _ _
      · exact h

theorem boundsOk_of_feedsetCheck {p : List Byte} {house : Rate} {pages : Nat} {u : Setup}
    (h : feedsetCheck p house pages = .ok u) : u.boundsOk = true := by
  unfold feedsetCheck at h
  split at h
  · cases h
  next v e =>
    have bounds : v.boundsOk = true := by
      unfold setupOf at e
      split at e
      · dsimp only at e
        split at e
        next ok => exact Option.some.inj e ▸ ok
        · cases e
      · cases e
    split at h
    · cases h
    · split at h
      · cases h
      · split at h
        · cases h
        · exact Except.ok.inj h ▸ bounds

theorem defaultSetup_boundsOk (house : Rate) : (defaultSetup house).boundsOk = true := by cases house <;> decide

theorem Feed.Placeable.takePlay {f : Feed} (h : f.Placeable) {v : PlayParams} (range : v.pos < 2 ^ 40) :
    (f.takePlay v).Placeable :=
  ⟨Feed.clearIntake_ringOk h.1.1 (h0 := 32 * (v.pos / 32)) (by omega) (by omega), range, h.2.2⟩

theorem Feed.Placeable.cleared {f : Feed} (h : f.Placeable) : (f.clearIntake 0).Placeable :=
  ⟨Feed.clearIntake_ringOk h.1.1 rfl (Nat.zero_le _), h.2⟩

theorem Feed.Placeable.install {f : Feed} (h : f.Placeable) {u : Setup} (bounds : u.boundsOk = true) (house : Rate) :
    (f.install u house).Placeable :=
  ⟨Feed.clearIntake_ringOk (f := { f with setup := u }) bounds rfl (Nat.zero_le _), h.2⟩

theorem Feed.Placeable.fallBack {f : Feed} (h : f.Placeable) (house : Rate) (pages : Nat) :
    (f.fallBack house pages).feed.Placeable := by
  obtain ⟨ring, start, pend⟩ := h.install (defaultSetup_boundsOk house) house
  refine ⟨ring, start, fun v hv => ?_⟩
  simp only [Feed.fallBack] at hv
  split at hv
  · exact pend v hv
  · cases hv

theorem Feed.Placeable.reclassed {f : Feed} (h : f.Placeable) (house : Rate) (pages : Nat) :
    (f.reclassed house pages).feed.Placeable := by
  unfold Feed.reclassed
  split
  · exact h
  · exact h.fallBack house pages

theorem Feed.Placeable.repartitioned {f : Feed} (h : f.Placeable) (house : Rate) (pages : Nat) :
    (f.repartitioned house pages).feed.Placeable := by
  unfold Feed.repartitioned
  split
  · exact h.cleared
  · exact h.fallBack house pages

theorem State.RingsOk.clockFeed {s : State} (h : s.RingsOk) (x : Side) (house : Rate) :
    (s.clockFeed x house).feed.Placeable := by
  unfold State.clockFeed
  split
  · exact h x
  · exact Feed.Placeable.reclassed (h x) ..

theorem feedReset_placeable (house : Rate) : (feedReset house).Placeable :=
  ⟨Feed.ringOk_iff.mpr ⟨defaultSetup_boundsOk house, List.length_replicate.trans (show 64 = 2 ^ 11 / 32 by decide), rfl, Nat.zero_le _,
    Feed.fitsBelow_of_empty (n := 64) rfl _⟩, show 0 < 2 ^ 40 by decide, nofun⟩

theorem ringsOk_commands : KeptByCommands State.RingsOk where
  toKeptByEvents := ringsOk_program.events
  judgeBlock x l v body h := h.judgeBlock x l v body
  feedset _ good h := h.onFeed fun f => f.install (boundsOk_of_feedsetCheck good) _
  takePlay range _ h := h.onFeed fun f => f.takePlay (by simp only [Config.posEnd] at range; omega)
  holdPlay range _ h := h.onFeed fun ⟨ring, start, _⟩ => ⟨ring, start, fun w hw => by
    obtain rfl := Option.some.inj hw
    simp only [Config.posEnd] at range
    omega⟩
  dropPlay _ h := h.onFeed fun ⟨ring, start, _⟩ => ⟨ring, start, nofun⟩
  acknowledged _ h := h.onFeed fun f => by
    unfold Feed.acknowledged
    split
    next v e =>
      obtain ⟨ring, start, -⟩ := f.takePlay (f.2.2 v e)
      exact ⟨ring, start, nofun⟩
    · exact f
  policy _ _ h := h.of_rings (State.onSel_rings ..)
  clockset _ _ _ h := State.ringsOk_of_feeds (h.clockFeed .a _) (h.clockFeed .b _)
  partition _ _ _ _ h := State.ringsOk_of_feeds (Feed.Placeable.repartitioned (h .a) ..)
    (Feed.Placeable.repartitioned (h .b) ..)
  flushed h := by
    obtain ⟨ringA, startA, -⟩ := Feed.Placeable.cleared (h .a)
    obtain ⟨ringB, startB, -⟩ := Feed.Placeable.cleared (h .b)
    exact State.ringsOk_of_feeds ⟨ringA, startA, nofun⟩ ⟨ringB, startB, nofun⟩
  fetched _ h := h.of_rings (by funext x; cases x <;> rfl)
  routed _ h := h.of_rings (by funext x; cases x <;> rfl)
  powerOn _ _ := State.ringsOk_of_feeds (feedReset_placeable _) (feedReset_placeable _)
  resetAssert _ := State.ringsOk_of_feeds (feedReset_placeable _) (feedReset_placeable _)

theorem ringsOk_samples : KeptBySamples State.RingsOk State.RingsOk where
  events := ringsOk_program.events
  settled := ringsOk_program.events
  weaken := id
  caughtUp h := h.of_rings (caughtUp_rings _)
  inherit h := h.of_rings (inheritRatio_rings _)
  program {s} va vb h := by
    have moved : (riseUnaligns (advancePositions (noteUnderrun s))).RingsOk := h.of_rings (by simp)
    exact ((moved.markFails _).of_rings (State.onSel_rings ..)).of_rings (takeEnds_rings _)

/-- Settles O58: the ring's own moves keep each stamp in its slot below the head, and no other touches what intake
needs. -/
theorem stepKeepsRings : Obligations.StepKeepsRings := fun _ _ =>
  step_keeps ringsOk_commands ringsOk_samples fun _ h => h.of_rings (by funext x; cases x <;> rfl)

end Sys2Proof.Machine
end

section
/-!
SUPPORT. The selector's operations on the feeds and the selector, each said once; and the program invariant said for
each state of the selector (R87).
-/

namespace Sys2Proof.Machine

open Sys2Proof

/-! ## The selector's operations (R87 to R100) -/

@[simp] theorem Side.ne_other (x : Side) : x ≠ x.other := by cases x <;> decide

theorem Side.eq_other_of_ne {x y : Side} (h : y ≠ x) : y = x.other := (Side.eq_or_eq_other y x).resolve_left h

@[simp] theorem setRole_feed (x y : Side) (role : ProgRole) (s : State) :
    (setRole x role s).feed y = if y = x then { s.feed x with role := role } else s.feed y := State.feed_onFeed ..

@[simp] theorem setRole_sel (x : Side) (role : ProgRole) (s : State) : (setRole x role s).sel = s.sel := rfl

@[simp] theorem setEnding_feed (x y : Side) (reason : Reason) (s : State) :
    (setEnding x reason s).feed y = if y = x then { s.feed x with st := .ending, ending := some reason } else s.feed y :=
  State.feed_onFeed ..

@[simp] theorem setEnding_sel (x : Side) (reason : Reason) (s : State) : (setEnding x reason s).sel = s.sel := rfl

@[simp] theorem completeFeed_sel (x : Side) (reason : Reason) (s : State) :
    (completeFeed x reason s).sel = s.sel.dropped x (s.feed x).isStandby := rfl

@[simp] theorem beginXfade_feed (x y : Side) (s : State) :
    (beginXfade x s).feed y = { s.feed y with role := if y = x then .outgoing else .leader } := by
  cases x <;> cases y <;> rfl

@[simp] theorem beginXfade_sel (x : Side) (s : State) :
    (beginXfade x s).sel = { s.sel.start (.xfade x) with aligned := false } := rfl

@[simp] theorem beginFade_feed (x y : Side) (cause : SilenceCause) (cold : Option Side) (s : State) :
    (beginFade x cause cold s).feed y = s.feed y := State.feed_onSel ..

@[simp] theorem beginFade_sel (x : Side) (cause : SilenceCause) (cold : Option Side) (s : State) :
    (beginFade x cause cold s).sel = { s.sel.start (.fade x) with cold := cold, fadeCause := cause } := rfl

@[simp] theorem beginRise_feed (x y : Side) (s : State) :
    (beginRise x s).feed y = if y = x then { s.feed x with st := .running, role := .leader } else s.feed y := by
  rw [beginRise, State.feed_onSel, State.feed_onFeed]

@[simp] theorem beginRise_sel (x : Side) (s : State) : (beginRise x s).sel = s.sel.start (.rise x) := rfl

@[simp] theorem enterSilent_feed (heard : Option Side) (cause : SilenceCause) (y : Side) (s : State) :
    (enterSilent heard cause s).feed y = s.feed y := by simp [enterSilent]

@[simp] theorem enterSilent_sel (heard : Option Side) (cause : SilenceCause) (s : State) :
    (enterSilent heard cause s).sel = s.sel.rest .silent := rfl

@[simp] theorem abandonXfade_feed (x y : Side) (reason : Reason) (s : State) :
    (abandonXfade x reason s).feed y = (setEnding x reason s).feed y := by simp [abandonXfade]

@[simp] theorem abandonXfade_sel (x : Side) (reason : Reason) (s : State) :
    (abandonXfade x reason s).sel = { s.sel with abandoned := true, n0 := s.sel.n, j := 0 } := rfl

@[simp] theorem takeStandby_feed (x y : Side) (s : State) :
    (takeStandby x s).feed y =
      if y = x then
        { s.feed x with st := .running, role := .standby, rs := (s.feed x).rs.slaved s.sel.pos s.sel.phase }
      else s.feed y := by
  rw [takeStandby, State.feed_onSel, State.feed_onFeed]

@[simp] theorem takeStandby_sel (x : Side) (s : State) : (takeStandby x s).sel = { s.sel with aligned := false } := rfl

/-! ## A feed's records by its state (R48 to R57) -/

@[simp] theorem Feed.isRead_of_running {f : Feed} (h : f.st = .running) : f.isRead = true := by rw [Feed.isRead, h]

theorem Feed.isRead_of_ending {f : Feed} (h : f.st = .ending) : f.isRead = true := by rw [Feed.isRead, h]

theorem Feed.isRead_iff (f : Feed) : f.isRead = true ↔ f.st = .running ∨ f.st = .ending := by
  unfold Feed.isRead
  cases f.st <;> simp

/-- A read position that holds stands at the last frame (R69). -/
def Resampler.HoldOk (v : Resampler) : Prop := v.held = true → v.i = 2 ^ 40 - 1 ∧ v.phi = 0

theorem Feed.RecordsOk.holdOk {f : Feed} (h : f.RecordsOk) : f.rs.HoldOk := by
  obtain ⟨-, -, -, -, -, hold⟩ := h
  exact hold

theorem Feed.recordsOk_running {f : Feed} (h : f.st = .running) :
    f.RecordsOk ↔ f.completion = none ∧ f.ending = none ∧ f.pendingPlay = none ∧ f.rs.HoldOk := by
  simp [Feed.RecordsOk, h, Feed.isRead, Resampler.HoldOk]

theorem Feed.recordsOk_ending {f : Feed} (h : f.st = .ending) :
    f.RecordsOk ↔ f.completion = none ∧ f.ending.isSome = true ∧ f.pendingPlay = none ∧ f.rs.HoldOk := by
  simp [Feed.RecordsOk, h, Feed.isRead, Resampler.HoldOk]

theorem Feed.recordsOk_waiting {f : Feed} (h : f.st = .seeking ∨ f.st = .primed) :
    f.RecordsOk ↔ f.completion = none ∧ f.ending = none ∧ f.pendingPlay = none ∧ f.role = .none ∧
      (f.rs.i = f.startPos ∧ f.rs.phi = 0) ∧ f.rs.HoldOk := by
  obtain h | h := h <;> simp [Feed.RecordsOk, h, Feed.isRead, Resampler.HoldOk]

theorem Feed.recordsOk_complete {f : Feed} (h : f.st = .complete) :
    f.RecordsOk ↔ f.completion.isSome = true ∧ f.ending = none ∧ f.role = .none ∧ f.rs.HoldOk := by
  simp [Feed.RecordsOk, h, Feed.isRead, Resampler.HoldOk]

theorem Feed.recordsOk_idle {f : Feed} (h : f.st = .idle) :
    f.RecordsOk ↔ f.completion = none ∧ f.ending = none ∧ f.pendingPlay = none ∧ f.role = .none ∧ f.rs.HoldOk := by
  simp [Feed.RecordsOk, h, Feed.isRead, Resampler.HoldOk]

theorem Feed.RecordsOk.completed {f : Feed} (h : f.RecordsOk) (reason : Reason) : (f.completed reason).RecordsOk :=
  (Feed.recordsOk_complete rfl).mpr ⟨rfl, rfl, rfl, h.holdOk⟩

theorem Feed.RecordsOk.setEnding {f : Feed} (h : f.RecordsOk) (run : f.isRead = true) (reason : Reason) :
    Feed.RecordsOk { f with st := .ending, ending := some reason } := by
  obtain ⟨complete, -, pend, -, -, hold⟩ := h
  obtain run | run := f.isRead_iff.mp run <;>
    exact (Feed.recordsOk_ending rfl).mpr ⟨by simpa [run] using complete, rfl, by simpa [run] using pend, hold⟩

theorem Feed.RecordsOk.setRole {f : Feed} (h : f.RecordsOk) (read : f.isRead = true) (role : ProgRole) :
    Feed.RecordsOk { f with role := role } := by
  obtain ⟨complete, ending, pend, -, waiting, hold⟩ := h
  exact ⟨complete, ending, pend, fun c => absurd read (Bool.not_eq_true _ ▸ c), waiting, hold⟩

/-- A feed that is read takes a new resampler state whose hold is right. -/
theorem Feed.RecordsOk.setRs {f : Feed} (h : f.RecordsOk) (read : f.isRead = true) {v : Resampler} (hv : v.HoldOk) :
    Feed.RecordsOk { f with rs := v } := by
  obtain ⟨complete, ending, pend, roles, -, -⟩ := h
  refine ⟨complete, ending, pend, roles, fun waits => ?_, hv⟩
  obtain read | read := f.isRead_iff.mp read <;> simp [read] at waits

/-- A PRIMED feed that is taken (R53, R92). -/
theorem Feed.RecordsOk.taken {f : Feed} (h : f.RecordsOk) (primed : f.st = .primed) (role : ProgRole) {v : Resampler}
    (hv : v.HoldOk) : Feed.RecordsOk { f with st := .running, role := role, rs := v } := by
  obtain ⟨complete, ending, pend, -⟩ := (Feed.recordsOk_waiting (.inr primed)).mp h
  exact (Feed.recordsOk_running rfl).mpr ⟨complete, ending, pend, hv⟩

theorem Resampler.HoldOk.slaved {v : Resampler} (pos phase : Nat) : (v.slaved pos phase).HoldOk := by
  intro held
  simp only [Resampler.slaved, Bool.and_eq_true, decide_eq_true_eq] at held
  obtain ⟨-, last, zero⟩ := held
  simp [Resampler.slaved, last, zero, Config.posEnd]

theorem Resampler.HoldOk.advanced {v : Resampler} (h : v.HoldOk) : v.advanced.HoldOk := by
  unfold Resampler.advanced
  split
  · exact h
  next free =>
    split
    · exact fun _ => ⟨rfl, rfl⟩
    · exact fun held => absurd held free

/-! ## The program invariant by the selector's state (R87) -/

/-- A feed that does not lead: if it is read it is the standby, at the program position and phase (R70, R87). -/
def Feed.Follows (f : Feed) (pos phase : Nat) : Prop :=
  f.isRead = true → f.isStandby = true ∧ f.rs.i = pos ∧ f.rs.phi = phase

theorem Feed.follows_of_not_read {f : Feed} (h : f.isRead = false) (pos phase : Nat) : f.Follows pos phase :=
  fun c => absurd c (by simp [h])

@[simp] theorem Feed.completed_isRead (f : Feed) (reason : Reason) : (f.completed reason).isRead = false := rfl

/-- The selector's counts and exponents within their ranges (R89, R98, R104). -/
def Selector.Bounded (v : Selector) : Prop :=
  v.n ≤ 2 ^ v.kx ∧ v.n0 + v.j ≤ 2 ^ v.kx ∧ 5 ≤ v.kx ∧ v.kx ≤ 10 ∧ 5 ≤ v.policyKx ∧ v.policyKx ≤ 10

theorem Selector.Bounded.start {v : Selector} (h : v.Bounded) (st : SelState) : (v.start st).Bounded := by
  obtain ⟨-, -, -, -, lo, hi⟩ := h
  exact ⟨Nat.zero_le _, Nat.zero_le _, lo, hi, lo, hi⟩

theorem Selector.Bounded.rest {v : Selector} (h : v.Bounded) (st : SelState) : (v.rest st).Bounded := by
  obtain ⟨-, -, lo, hi, policy⟩ := h
  exact ⟨Nat.zero_le _, Nat.zero_le _, lo, hi, policy⟩

/-- Outside a fade no flag is cold, and outside a crossfade no mark is set (R94, R98). -/
def Selector.Plain (v : Selector) : Prop := v.cold = none ∧ v.abandoned = false ∧ v.Bounded

theorem Selector.Bounded.start_plain {v : Selector} (h : v.Bounded) (st : SelState) : (v.start st).Plain :=
  ⟨rfl, rfl, h.start st⟩

theorem Selector.Bounded.rest_plain {v : Selector} (h : v.Bounded) (st : SelState) : (v.rest st).Plain :=
  ⟨rfl, rfl, h.rest st⟩

theorem State.ProgramOk.bounded {s : State} (h : s.ProgramOk) : s.sel.Bounded := by
  obtain ⟨-, -, ⟨-, -, -, bounds⟩, -⟩ := h
  exact bounds

theorem State.ProgramOk.records {s : State} (h : s.ProgramOk) (x : Side) : (s.feed x).RecordsOk := h.1 x

/-- A role other than that of a standby, on both sides of a lead. -/
theorem standby_is_other {s : State} {l x : Side} (leads : (s.feed l).role = .leader)
    (hx : (s.feed x).isStandby = true) : x = l.other := by
  refine Side.eq_other_of_ne fun e => ?_
  rw [Feed.isStandby_iff, e, leads] at hx
  cases hx.2

section Leads

variable {s : State} {l : Side}

/-- What holds of a leader and the feed beside it gives the roles' slaving and the flag's meaning. -/
theorem slavedOk_of_follows (leads : (s.feed l).role = .leader)
    (other : (s.feed l.other).Follows s.sel.pos s.sel.phase) (apart : ∀ x, s.sel.state ≠ .xfade x) : s.SlavedOk := by
  refine ⟨fun x hx => ?_, fun x hx => absurd hx (apart x)⟩
  obtain rfl := standby_is_other leads hx
  exact (other (Feed.isRead_of_isStandby hx)).2

theorem follows_of_slavedOk (slaved : s.SlavedOk)
    (other : (s.feed l.other).isRead = true → (s.feed l.other).isStandby = true) :
    (s.feed l.other).Follows s.sel.pos s.sel.phase := fun read => ⟨other read, slaved.1 _ (other read)⟩

theorem aligned_other (leads : (s.feed l).role = .leader) (h : ∃ x, (s.feed x).isStandby = true) :
    (s.feed l.other).isStandby = true := by
  obtain ⟨x, hx⟩ := h
  exact standby_is_other leads hx ▸ hx

/-- The program invariant on air and in a rise (R87). -/
theorem programOk_running (hs : s.sel.state = .onair l ∨ s.sel.state = .rise l) :
    s.ProgramOk ↔ (∀ x, (s.feed x).RecordsOk) ∧ (s.feed l).st = .running ∧ (s.feed l).role = .leader ∧
      (s.feed l.other).Follows s.sel.pos s.sel.phase ∧
      (s.sel.aligned = true → (s.feed l.other).isStandby = true) ∧ s.sel.Plain := by
  have roles : s.RolesOk ↔ (s.feed l).st = .running ∧ (s.feed l).role = .leader ∧
      ((s.feed l.other).isRead = true → (s.feed l.other).isStandby = true) := by
    obtain hs | hs := hs <;> simp only [State.RolesOk, hs]
  have noXfade (x : Side) : s.sel.state ≠ .xfade x := by obtain hs | hs := hs <;> simp [hs]
  have noFade (x : Side) : s.sel.state ≠ .fade x := by obtain hs | hs := hs <;> simp [hs]
  constructor
  · rintro ⟨records, rolesOk, ⟨aligned, cold, mark, bounds⟩, slaved⟩
    obtain ⟨run, leads, other⟩ := roles.mp rolesOk
    refine ⟨records, run, leads, follows_of_slavedOk slaved other, fun a => aligned_other leads (aligned a), ?_, ?_,
      bounds⟩
    · cases e : s.sel.cold with
      | none => rfl
      | some y => exact absurd (cold y e).1 (noFade _)
    · rw [← Bool.not_eq_true]
      intro e
      obtain ⟨x, hx⟩ := mark e
      exact noXfade x hx
  · rintro ⟨records, run, leads, other, aligned, cold, mark, bounds⟩
    refine ⟨records, roles.mpr ⟨run, leads, fun read => (other read).1⟩,
      ⟨fun a => ⟨_, aligned a⟩, fun y e => ?_, fun e => ?_, bounds⟩, slavedOk_of_follows leads other noXfade⟩
    · rw [cold] at e; cases e
    · rw [mark] at e; cases e

/-- The program invariant in a fade (R87, R94). -/
theorem programOk_fade (hs : s.sel.state = .fade l) :
    s.ProgramOk ↔ (∀ x, (s.feed x).RecordsOk) ∧ (s.feed l).st = .ending ∧ (s.feed l).role = .leader ∧
      (s.feed l.other).Follows s.sel.pos s.sel.phase ∧
      (s.sel.aligned = true → (s.feed l.other).isStandby = true) ∧
      (∀ y, s.sel.cold = some y → y = l.other ∧ (s.feed l.other).isStandby = true) ∧ s.sel.abandoned = false ∧
      s.sel.Bounded := by
  have roles : s.RolesOk ↔ (s.feed l).st = .ending ∧ (s.feed l).role = .leader ∧
      ((s.feed l.other).isRead = true → (s.feed l.other).isStandby = true) := by simp only [State.RolesOk, hs]
  constructor
  · rintro ⟨records, rolesOk, ⟨aligned, cold, mark, bounds⟩, slaved⟩
    obtain ⟨ending, leads, other⟩ := roles.mp rolesOk
    refine ⟨records, ending, leads, follows_of_slavedOk slaved other, fun a => aligned_other leads (aligned a),
      fun y e => ?_, ?_, bounds⟩
    · obtain ⟨-, standby⟩ := cold y e
      obtain rfl := standby_is_other leads standby
      exact ⟨rfl, standby⟩
    · rw [← Bool.not_eq_true]
      intro e
      obtain ⟨x, hx⟩ := mark e
      simp [hs] at hx
  · rintro ⟨records, ending, leads, other, aligned, cold, mark, bounds⟩
    refine ⟨records, roles.mpr ⟨ending, leads, fun read => (other read).1⟩,
      ⟨fun a => ⟨_, aligned a⟩, fun y e => ?_, fun e => ?_, bounds⟩,
      slavedOk_of_follows leads other fun x => by simp [hs]⟩
    · obtain ⟨rfl, standby⟩ := cold y e
      exact ⟨by simp [hs], standby⟩
    · rw [mark] at e; cases e

/-- The program invariant in a crossfade (R87, R98). -/
theorem programOk_xfade (hs : s.sel.state = .xfade l) :
    s.ProgramOk ↔ (∀ x, (s.feed x).RecordsOk) ∧ (s.feed l).role = .outgoing ∧ (s.feed l).isRead = true ∧
      (s.feed l.other).role = .leader ∧ (s.feed l.other).st = (if s.sel.abandoned then .ending else .running) ∧
      (0 < s.sel.n + s.sel.n0 + s.sel.j → (s.feed l).st = .running →
        (s.feed l).rs.i = s.sel.pos ∧ (s.feed l).rs.phi = s.sel.phase) ∧
      s.sel.aligned = false ∧ s.sel.cold = none ∧ s.sel.Bounded := by
  have roles : s.RolesOk ↔ (s.feed l).role = .outgoing ∧ (s.feed l).isRead = true ∧ (s.feed l.other).role = .leader ∧
      (s.feed l.other).st = (if s.sel.abandoned then .ending else .running) := by simp only [State.RolesOk, hs]
  have none_stands (out : (s.feed l).role = .outgoing) (leads : (s.feed l.other).role = .leader) (x : Side) :
      (s.feed x).isStandby = false := by
    obtain rfl | rfl := Side.eq_or_eq_other x l
    · exact Feed.isStandby_of_role_ne (by simp [out])
    · exact Feed.isStandby_of_role_ne (by simp [leads])
  constructor
  · rintro ⟨records, rolesOk, ⟨aligned, cold, mark, bounds⟩, -, slaved⟩
    obtain ⟨out, read, leads, st⟩ := roles.mp rolesOk
    refine ⟨records, out, read, leads, st, slaved l hs, ?_, ?_, bounds⟩
    · rw [← Bool.not_eq_true]
      intro a
      obtain ⟨x, hx⟩ := aligned a
      simp [none_stands out leads x] at hx
    · cases e : s.sel.cold with
      | none => rfl
      | some y =>
        have := (cold y e).1
        simp [hs] at this
  · rintro ⟨records, out, read, leads, st, slaved, aligned, cold, bounds⟩
    refine ⟨records, roles.mpr ⟨out, read, leads, st⟩,
      ⟨fun a => by simp [aligned] at a, fun y e => by simp [cold] at e, fun _ => ⟨l, hs⟩, bounds⟩,
      fun x hx => by simp [none_stands out leads x] at hx, fun x hx => ?_⟩
    obtain rfl : l = x := by simpa [hs] using hx
    exact slaved

/-- The program invariant in SILENT (R87). -/
theorem programOk_silent (hs : s.sel.state = .silent) :
    s.ProgramOk ↔ (∀ x, (s.feed x).RecordsOk) ∧ (∀ x, (s.feed x).Follows s.sel.pos s.sel.phase) ∧
      (∀ x, (s.feed x).isRead = true → (s.feed x.other).isRead = false) ∧
      (s.sel.aligned = true → ∃ x, (s.feed x).isStandby = true) ∧ s.sel.Plain := by
  have roles : s.RolesOk ↔ ∀ x, (s.feed x).isRead = true →
      (s.feed x).isStandby = true ∧ (s.feed x.other).isStandby = false := by simp only [State.RolesOk, hs]
  constructor
  · rintro ⟨records, rolesOk, ⟨aligned, cold, mark, bounds⟩, slaved, -⟩
    have alone := roles.mp rolesOk
    refine ⟨records, fun x read => ⟨(alone x read).1, slaved x (alone x read).1⟩, fun x read => ?_, aligned, ?_, ?_,
      bounds⟩
    · rw [← Bool.not_eq_true]
      intro both
      have := (alone _ both).2
      simp [(alone x read).1] at this
    · cases e : s.sel.cold with
      | none => rfl
      | some y =>
        have := (cold y e).1
        simp [hs] at this
    · rw [← Bool.not_eq_true]
      intro e
      obtain ⟨x, hx⟩ := mark e
      simp [hs] at hx
  · rintro ⟨records, follows, alone, aligned, cold, mark, bounds⟩
    refine ⟨records, roles.mpr fun x read => ⟨(follows x read).1, ?_⟩,
      ⟨aligned, fun y e => by simp [cold] at e, fun e => by simp [mark] at e, bounds⟩,
      fun x hx => (follows x (Feed.isRead_of_isStandby hx)).2, fun x hx => by simp [hs] at hx⟩
    rw [← Bool.not_eq_true]
    exact fun stands => by simpa [alone x read] using Feed.isRead_of_isStandby stands

end Leads

end Sys2Proof.Machine
end

section
/-!
SUPPORT. The program invariant under each operation of the feeds and the selector (R54 to R58, R87 to R103).
-/

namespace Sys2Proof.Machine

open Sys2Proof

/-! ## What the program invariant sees -/

/-- The fields of a feed that the program invariant sees. -/
def Feed.cast (f : Feed) :
    FeedState × ProgRole × Nat × Option Reason × Option Completion × Option PlayParams × Nat × Nat × Bool :=
  (f.st, f.role, f.startPos, f.ending, f.completion, f.pendingPlay, f.rs.i, f.rs.phi, f.rs.held)

/-- The fields of the selector that the program invariant sees, with what says whether a transition is over. -/
def Selector.cast (v : Selector) :
    SelState × Option Side × Bool × Nat × Nat × Nat × Nat × Nat × Nat × Bool × Nat :=
  (v.state, v.cold, v.abandoned, v.n0, v.j, v.n, v.kx, v.pos, v.phase, v.aligned, v.policyKx)

theorem State.ProgramOk.of_cast {s t : State} (h : s.ProgramOk) (feeds : ∀ x, (t.feed x).cast = (s.feed x).cast)
    (sel : t.sel.cast = s.sel.cast) : t.ProgramOk := by
  simp only [Feed.cast, Prod.mk.injEq, forall_and] at feeds
  simp only [Selector.cast, Prod.mk.injEq] at sel
  obtain ⟨st, role, start, ending, completion, pend, i, phi, held⟩ := feeds
  obtain ⟨state, cold, abandoned, n0, j, n, kx, pos, phase, aligned, policyKx⟩ := sel
  have read (x : Side) : (t.feed x).isRead = (s.feed x).isRead := by rw [Feed.isRead, Feed.isRead, st]
  have stands (x : Side) : (t.feed x).isStandby = (s.feed x).isStandby := by
    rw [Feed.isStandby, Feed.isStandby, st, role]
  unfold State.ProgramOk State.RolesOk Selector.CountsOk State.SlavedOk Feed.RecordsOk at *
  simp only [st, role, start, ending, completion, pend, i, phi, held, state, cold, abandoned, n0, j, n, kx, pos, phase,
    aligned, policyKx, read, stands]
  exact h

theorem State.ProgramOk.castFeed {s : State} (h : s.ProgramOk) {x : Side} {f : Feed} (e : f.cast = (s.feed x).cast) :
    (s.setFeed x f).ProgramOk := by
  refine h.of_cast (fun y => ?_) rfl
  rw [State.feed_setFeed]
  split
  next same => rw [e, same]
  · rfl

theorem Side.forall_iff {p : Side → Prop} (x : Side) : (∀ y, p y) ↔ p x ∧ p x.other := by
  refine ⟨fun h => ⟨h x, h _⟩, fun ⟨hx, ho⟩ y => ?_⟩
  obtain rfl | rfl := Side.eq_or_eq_other y x
  · exact hx
  · exact ho

section Ops

variable {s : State} (h : s.ProgramOk) {l x : Side}
include h

/-- In a state with a leader, a feed that is read and is no standby leads (R87). -/
theorem State.ProgramOk.eq_leader (hs : s.sel.state = .onair l ∨ s.sel.state = .rise l)
    (leads : (s.feed x).role = .leader ∨ (s.feed x).role = .outgoing) (read : (s.feed x).isRead = true) : x = l := by
  obtain ⟨-, -, -, other, -⟩ := (programOk_running hs).mp h
  by_contra ne
  obtain rfl := Side.eq_other_of_ne ne
  have stands := ((Feed.isStandby_iff _).mp (other read).1).2
  simp [stands] at leads

/-- A feed that is not read is not the leader. -/
theorem State.ProgramOk.ne_leader (hs : s.sel.state = .onair l ∨ s.sel.state = .rise l ∨ s.sel.state = .fade l)
    (apart : (s.feed x).role ≠ .leader) : x = l.other := by
  refine Side.eq_other_of_ne fun e => apart ?_
  obtain hs | hs | hs := hs
  · exact e ▸ ((programOk_running (.inl hs)).mp h).2.2.1
  · exact e ▸ ((programOk_running (.inr hs)).mp h).2.2.1
  · exact e ▸ ((programOk_fade hs).mp h).2.2.1

theorem State.ProgramOk.no_xfade (apart : (s.feed x).role ≠ .leader ∧ (s.feed x).role ≠ .outgoing) (o : Side) :
    s.sel.state ≠ .xfade o := by
  intro hs
  obtain ⟨-, out, -, leads, -⟩ := (programOk_xfade hs).mp h
  obtain rfl | rfl := Side.eq_or_eq_other x o
  · exact apart.2 out
  · exact apart.1 leads

/-- A feed that neither leads nor is faded completes (R57, R58, R60, R87). -/
theorem State.ProgramOk.completed (apart : (s.feed x).role ≠ .leader ∧ (s.feed x).role ≠ .outgoing) (reason : Reason) :
    (completeFeed x reason s).ProgramOk := by
  have records : ∀ y, ((completeFeed x reason s).feed y).RecordsOk := by
    intro y
    rw [completeFeed_feed]
    split
    · exact (h.records x).completed reason
    · exact h.records y
  have unaligned {a : Bool} (e : a = true → (s.feed x).isStandby = true) : (a && !(s.feed x).isStandby) = false := by
    cases a
    · rfl
    · simp [e rfl]
  cases hs : s.sel.state with
  | silent =>
    obtain ⟨-, follows, alone, aligned, cold, mark, bounds⟩ := (programOk_silent hs).mp h
    refine (programOk_silent (s := completeFeed x reason s) hs).mpr ⟨records, fun y => ?_, fun y => ?_, fun a => ?_, ?_, mark, bounds⟩
    · rw [completeFeed_feed]
      split
      · exact Feed.follows_of_not_read rfl _ _
      · exact follows y
    · simp only [completeFeed_feed]
      split
      · exact fun c => by cases c
      · split
        · exact fun _ => rfl
        · exact alone y
    · simp only [completeFeed_sel, Selector.dropped, Bool.and_eq_true, Bool.not_eq_true'] at a
      obtain ⟨y, hy⟩ := aligned a.1
      refine ⟨y, ?_⟩
      rw [completeFeed_feed, if_neg (fun e => by simp [← e, hy] at a)]
      exact hy
    · simp [Selector.dropped, cold]
  | onair l =>
    obtain ⟨-, run, leads, other, aligned, cold, mark, bounds⟩ := (programOk_running (.inl hs)).mp h
    obtain rfl := h.ne_leader (.inl hs) apart.1
    refine (programOk_running (s := completeFeed _ reason s) (.inl hs)).mpr
      ⟨records, ?_, ?_, ?_, fun a => ?_, ?_, mark, bounds⟩
    · simpa using run
    · simpa using leads
    · simpa using Feed.follows_of_not_read rfl _ _
    · simp [Selector.dropped, unaligned aligned] at a
    · simp [Selector.dropped, cold]
  | rise l =>
    obtain ⟨-, run, leads, other, aligned, cold, mark, bounds⟩ := (programOk_running (.inr hs)).mp h
    obtain rfl := h.ne_leader (.inr (.inl hs)) apart.1
    refine (programOk_running (s := completeFeed _ reason s) (.inr hs)).mpr
      ⟨records, ?_, ?_, ?_, fun a => ?_, ?_, mark, bounds⟩
    · simpa using run
    · simpa using leads
    · simpa using Feed.follows_of_not_read rfl _ _
    · simp [Selector.dropped, unaligned aligned] at a
    · simp [Selector.dropped, cold]
  | fade l =>
    obtain ⟨-, ending, leads, other, aligned, cold, mark, bounds⟩ := (programOk_fade hs).mp h
    obtain rfl := h.ne_leader (.inr (.inr hs)) apart.1
    refine (programOk_fade (s := completeFeed _ reason s) hs).mpr
      ⟨records, ?_, ?_, ?_, fun a => ?_, fun y e => ?_, mark, bounds⟩
    · simpa using ending
    · simpa using leads
    · simpa using Feed.follows_of_not_read rfl _ _
    · simp [Selector.dropped, unaligned aligned] at a
    · simp only [completeFeed_sel, Selector.dropped] at e
      split at e
      · cases e
      next ne => exact absurd ((cold y e).1 ▸ e) ne
  | xfade o => exact absurd hs (h.no_xfade apart o)

/-- A feed that waits or stands by, and completes (R57, R58, R60). -/
theorem State.ProgramOk.ended (reason : Reason)
    (hx : (s.feed x).st = .seeking ∨ (s.feed x).st = .primed ∨
      (s.feed x).st = .running ∧ ¬ ((s.feed x).role = .leader ∨ (s.feed x).role = .outgoing)) :
    (completeFeed x reason s).ProgramOk := by
  refine h.completed ?_ reason
  obtain e | e | ⟨-, e⟩ := hx
  · simp [((Feed.recordsOk_waiting (.inl e)).mp (h.records x)).2.2.2.1]
  · simp [((Feed.recordsOk_waiting (.inr e)).mp (h.records x)).2.2.2.1]
  · exact not_or.mp e

/-- A fade of the leader on air begins (R94, R100). -/
theorem State.ProgramOk.faded (hs : s.sel.state = .onair l) (reason : Reason) (cause : SilenceCause)
    {cold : Option Side} (hc : ∀ y, cold = some y → y = l.other ∧ (s.feed l.other).isStandby = true) :
    (setEnding l reason (beginFade l cause cold s)).ProgramOk := by
  obtain ⟨records, run, leads, other, aligned, -, -, bounds⟩ := (programOk_running (.inl hs)).mp h
  refine (programOk_fade (s := setEnding l reason (beginFade l cause cold s)) rfl).mpr
    ⟨(Side.forall_iff l).mpr ⟨?_, ?_⟩, ?_, ?_, ?_, ?_, ?_, rfl, bounds.start (.fade l)⟩
  · simpa using (records l).setEnding (Feed.isRead_of_running run) reason
  · simpa using records l.other
  · simp
  · simpa using leads
  · simpa [Selector.start] using other
  · simpa [Selector.start] using aligned
  · simpa using hc

/-- A crossfade from the leader on air to the standby begins (R94, R100, R101). -/
theorem State.ProgramOk.crossfaded (hs : s.sel.state = .onair l) (stands : (s.feed l.other).isStandby = true) :
    (beginXfade l s).ProgramOk := by
  obtain ⟨records, run, leads, other, aligned, -, -, bounds⟩ := (programOk_running (.inl hs)).mp h
  refine (programOk_xfade (s := beginXfade l s) rfl).mpr
    ⟨fun y => ?_, ?_, ?_, ?_, ?_, fun c => absurd c (by simp [Selector.start]), rfl, rfl, bounds.start (.xfade l)⟩
  · rw [beginXfade_feed]
    refine (records y).setRole ?_ _
    obtain rfl | rfl := Side.eq_or_eq_other y l
    · exact Feed.isRead_of_running run
    · exact Feed.isRead_of_isStandby stands
  · simp
  · rw [beginXfade_feed]
    exact Feed.isRead_of_running run
  · simp
  · simpa [Selector.start] using ((Feed.isStandby_iff _).mp stands).1

/-- The outgoing feed of a crossfade goes ENDING (R98, R100). -/
theorem State.ProgramOk.outgoingEnds (hs : s.sel.state = .xfade l) (reason : Reason) :
    (setEnding l reason s).ProgramOk := by
  obtain ⟨records, out, read, leads, st, -, aligned, cold, bounds⟩ := (programOk_xfade hs).mp h
  refine (programOk_xfade (s := setEnding l reason s) hs).mpr
    ⟨(Side.forall_iff l).mpr ⟨?_, ?_⟩, ?_, ?_, ?_, ?_, fun _ c => ?_, aligned, cold, bounds⟩
  · simpa using (records l).setEnding read reason
  · simpa using records l.other
  · simpa using out
  · simp [Feed.isRead]
  · simpa using leads
  · rw [setEnding_feed, if_neg (Side.other_ne l)]
    exact st
  · simp at c

/-- A crossfade is abandoned for its running incoming leader (R98). -/
theorem State.ProgramOk.abandons (hs : s.sel.state = .xfade l) (run : (s.feed l.other).st = .running)
    (reason : Reason) : (abandonXfade l.other reason s).ProgramOk := by
  obtain ⟨records, out, read, leads, -, slaved, aligned, cold, bounds⟩ := (programOk_xfade hs).mp h
  have counts : Selector.Bounded { s.sel with abandoned := true, n0 := s.sel.n, j := 0 } := ⟨bounds.1, bounds.1, bounds.2.2⟩
  refine (programOk_xfade (s := abandonXfade l.other reason s) hs).mpr
    ⟨(Side.forall_iff l).mpr ⟨?_, ?_⟩, ?_, ?_, ?_, ?_, fun c => ?_, aligned, cold, counts⟩
  · simpa using records l
  · simpa using (records l.other).setEnding (Feed.isRead_of_running run) reason
  · simpa using out
  · simpa using read
  · simpa using leads
  · simp
  · simp only [abandonXfade_sel] at c
    simpa using slaved (by omega)

/-- A rise is faded back, or ended at once where nothing of it has been formed (R99). -/
theorem State.ProgramOk.fadedBack (hs : s.sel.state = .rise l) (reason : Reason) : (fadeBack l reason s).ProgramOk := by
  obtain ⟨records, run, leads, other, aligned, cold, mark, bounds⟩ := (programOk_running (.inr hs)).mp h
  have ended := (records l).setEnding (Feed.isRead_of_running run) reason
  unfold fadeBack
  split
  · refine (programOk_silent rfl).mpr ⟨(Side.forall_iff l).mpr ⟨?_, ?_⟩, (Side.forall_iff l).mpr ⟨?_, ?_⟩,
      (Side.forall_iff l).mpr ⟨?_, ?_⟩, fun a => ⟨l.other, ?_⟩, bounds.rest_plain .silent⟩
    · simpa using ended.completed reason
    · simpa using records l.other
    · simpa using Feed.follows_of_not_read rfl _ _
    · simpa [Selector.rest, Selector.dropped] using other
    · simp
    · simp
    · simp only [enterSilent_sel, Selector.rest, completeFeed_sel, Selector.dropped, Bool.and_eq_true] at a
      simpa using aligned a.1
  · refine (programOk_fade (l := l) rfl).mpr
      ⟨(Side.forall_iff l).mpr ⟨?_, ?_⟩, ?_, ?_, ?_, ?_, nofun, mark, (Nat.sub_le _ _), bounds.2⟩
    · simpa using ended
    · simpa using records l.other
    · simp
    · simpa using leads
    · simpa using other
    · simpa using aligned

/-- A confirmed loss, by the feed's state and the selector's (R58, R93). -/
theorem State.ProgramOk.loss (x : Side) : (lossTaken x s).ProgramOk := by
  unfold lossTaken
  split
  next e => exact h.ended .laneLost (.inl e)
  next e => exact h.ended .laneLost (.inr (.inl e))
  next run =>
    split
    next stands => exact h.completed (by simp [stands]) .laneLost
    · unfold selectorLoss
      split
      next l hs =>
        split
        next e =>
          subst e
          unfold failover
          split
          next stands =>
            split
            · exact (h.crossfaded hs stands).outgoingEnds rfl .laneLost |>.of_cast (fun y => by simp) rfl
            · have faded := h.faded hs .laneLost .loss (cold := some l.other) fun y e => ⟨by simpa using e.symm, stands⟩
              exact faded.of_cast (fun y => by simp) rfl
          · exact h.faded hs .laneLost .loss nofun
        · exact h
      next l hs =>
        split
        next e => exact e ▸ h.fadedBack hs .laneLost
        · exact h
      next o hs =>
        split
        next e => exact e ▸ h.outgoingEnds hs .laneLost
        next ne =>
          obtain rfl := Side.eq_other_of_ne (Ne.symm ne)
          exact h.abandons hs run .laneLost
      · exact h
  · exact h

/-- An on-air STOP of a running feed that leads or is faded out (R100). -/
theorem State.ProgramOk.stopOnAir (handover : Bool) (run : (s.feed x).st = .running)
    (leads : (s.feed x).role = .leader ∨ (s.feed x).role = .outgoing) : (stopOnAir x handover s).2.ProgramOk := by
  have read := Feed.isRead_of_running run
  unfold Machine.stopOnAir
  split
  next l hs =>
    obtain rfl := h.eq_leader (.inl hs) leads read
    split
    next c =>
      simp only [Bool.and_eq_true] at c
      exact (h.crossfaded hs c.1.2).outgoingEnds rfl .stopped
    · exact h.faded hs .stopped .stop nofun
  next l hs =>
    obtain rfl := h.eq_leader (.inr hs) leads read
    exact h.fadedBack hs .stopped
  next o hs =>
    split
    next e => exact e ▸ h.outgoingEnds hs .stopped
    next ne =>
      obtain rfl := Side.eq_other_of_ne (Ne.symm ne)
      exact h.abandons hs run .stopped
  · exact h

end Ops

end Sys2Proof.Machine
end

section
/-!
SUPPORT. The program invariant under the end of a transition, ONAIR, the judgements of a block event and the house
sample event (R69 to R71, R87 to R103), and when a transition is over.
-/

namespace Sys2Proof.Machine

open Sys2Proof

@[simp] theorem Feed.repositioned_st (f : Feed) : f.repositioned.st = f.st := rfl

theorem Feed.RecordsOk.repositioned {f : Feed} (h : f.RecordsOk) (read : f.isRead = true) : f.repositioned.RecordsOk :=
  h.setRs read nofun

/-- The state with the standby's aligned flag set. -/
theorem State.ProgramOk.flagged {s : State} (h : s.ProgramOk) {y : Side} (stands : (s.feed y).isStandby = true)
    (v fresh : Bool) : (s.onSel fun u => { u with aligned := v, fresh := fresh }).ProgramOk := by
  obtain ⟨records, roles, ⟨-, rest⟩, slaved⟩ := h
  refine ⟨fun x => ?_, ?_, ⟨fun _ => ⟨y, ?_⟩, ?_⟩, ?_⟩
  · simpa using records x
  · simp only [State.RolesOk, State.feed_onSel]
    exact roles
  · simpa using stands
  · simpa [Selector.CountsOk] using rest
  · simpa [State.SlavedOk] using slaved

/-- The feed that a crossfade has faded out: it completes, or stands by at the program position (R55, R89). -/
theorem finishOutgoing_follows {s : State} {l : Side} (records : (s.feed l).RecordsOk)
    (read : (s.feed l).isRead = true)
    (slaved : (s.feed l).st = .running → (s.feed l).rs.i = s.sel.pos ∧ (s.feed l).rs.phi = s.sel.phase)
    (aligned : s.sel.aligned = false) (bounds : s.sel.Bounded) :
    ((finishOutgoing l s).feed l).RecordsOk ∧ ((finishOutgoing l s).feed l).Follows s.sel.pos s.sel.phase ∧
      (finishOutgoing l s).feed l.other = s.feed l.other ∧
      ((finishOutgoing l s).sel.pos, (finishOutgoing l s).sel.phase) = (s.sel.pos, s.sel.phase) ∧
      (finishOutgoing l s).sel.aligned = false ∧ (finishOutgoing l s).sel.Bounded := by
  have completes (reason : Reason) :
      ((completeFeed l reason s).feed l).RecordsOk ∧ ((completeFeed l reason s).feed l).Follows s.sel.pos s.sel.phase ∧
        (completeFeed l reason s).feed l.other = s.feed l.other ∧
        ((completeFeed l reason s).sel.pos, (completeFeed l reason s).sel.phase) = (s.sel.pos, s.sel.phase) ∧
        (completeFeed l reason s).sel.aligned = false ∧ (completeFeed l reason s).sel.Bounded := by
    refine ⟨?_, ?_, by simp, rfl, ?_, bounds⟩
    · simpa using records.completed reason
    · simpa using Feed.follows_of_not_read rfl _ _
    · simp [Selector.dropped, aligned]
  unfold finishOutgoing
  split
  · exact completes _
  next run =>
    split
    · exact completes _
    · refine ⟨?_, fun _ => ⟨?_, ?_⟩, by simp, rfl, rfl, bounds⟩
      · simpa using records.setRole read .standby
      · simpa [Feed.isStandby] using run
      · simpa using slaved run
  next notEnding notRunning =>
    obtain c | c := (s.feed l).isRead_iff.mp read
    · exact absurd c notRunning
    · exact absurd c notEnding

theorem State.isStandby_of_standby {s : State} {y : Side} (h : s.standby = some y) : (s.feed y).isStandby = true := by
  unfold State.standby at h
  split at h
  next c => exact Option.some.inj h ▸ c
  · split at h
    next c => exact Option.some.inj h ▸ c
    · cases h

section Ops

variable {s : State} (h : s.ProgramOk) {l x : Side}
include h

/-! ## The end of a transition (R89, R96, R98) -/

/-- The end of a transition whose last house sample has been formed (R89, R96, R98). -/
theorem State.ProgramOk.transitionEnded (formed : 0 < s.sel.formed) : (endTransition s).ProgramOk := by
  unfold endTransition
  split
  next l hs =>
    obtain ⟨records, run, leads, other, aligned, -, -, bounds⟩ := (programOk_running (.inr hs)).mp h
    refine (programOk_running (l := l) (.inl rfl)).mpr ⟨fun y => ?_, ?_, ?_, ?_, ?_, bounds.rest_plain (.onair l)⟩
    · simpa using records y
    · simpa using run
    · simpa using leads
    · simpa [Selector.rest] using other
    · simpa [Selector.rest] using aligned
  next o hs =>
    split
    next mark =>
      have begun : 0 < s.sel.n0 + s.sel.j := by simpa [Selector.formed, mark] using formed
      obtain ⟨records, -, read, -, -, slaved, aligned, -, bounds⟩ := (programOk_xfade hs).mp h
      obtain ⟨fRecords, follows, same, posPhase, unaligned, bounds⟩ := finishOutgoing_follows (l := o)
        (s := completeFeed o.other ((s.feed o.other).ending.getD .stopped) s) (by simpa using records o)
        (by simpa using read) (by simpa [Selector.dropped] using slaved (by omega)) (by simp [Selector.dropped, aligned])
        bounds
      obtain ⟨pos, phase⟩ := Prod.mk.inj posPhase
      have gone : ((finishOutgoing o (completeFeed o.other ((s.feed o.other).ending.getD .stopped) s)).feed
          o.other).isRead = false := by simp [same]
      refine (programOk_silent rfl).mpr ⟨(Side.forall_iff o).mpr ⟨?_, ?_⟩, (Side.forall_iff o).mpr ⟨?_, ?_⟩,
        (Side.forall_iff o).mpr ⟨?_, ?_⟩, fun a => ?_, bounds.rest_plain .silent⟩
      · simpa using fRecords
      · simpa [same] using (records o.other).completed _
      · simpa [Selector.rest, pos, phase] using follows
      · exact Feed.follows_of_not_read (by simpa using gone) _ _
      · simp [gone]
      · simp [gone]
      · simp [Selector.rest, unaligned] at a
    next mark =>
      have begun : 0 < s.sel.n := by simpa [Selector.formed, mark] using formed
      obtain ⟨records, -, read, leads, st, slaved, aligned, -, bounds⟩ := (programOk_xfade hs).mp h
      obtain ⟨fRecords, follows, same, posPhase, unaligned, bounds⟩ :=
        finishOutgoing_follows (records o) read (slaved (by omega)) aligned bounds
      obtain ⟨pos, phase⟩ := Prod.mk.inj posPhase
      refine (programOk_running (l := o.other) (.inl rfl)).mpr
        ⟨(Side.forall_iff o).mpr ⟨?_, ?_⟩, ?_, ?_, ?_, fun a => ?_, bounds.rest_plain (.onair o.other)⟩
      · simpa using fRecords
      · simpa [same] using records o.other
      · simpa [same, mark] using st
      · simpa [same] using leads
      · simpa [Selector.rest, pos, phase] using follows
      · simp [Selector.rest, unaligned] at a
  next l hs =>
    obtain ⟨records, ending, leads, other, aligned, cold, mark, bounds⟩ := (programOk_fade hs).mp h
    split
    next hc =>
      refine (programOk_silent rfl).mpr ⟨(Side.forall_iff l).mpr ⟨?_, ?_⟩, (Side.forall_iff l).mpr ⟨?_, ?_⟩,
        (Side.forall_iff l).mpr ⟨?_, ?_⟩, fun a => ⟨l.other, ?_⟩, bounds.rest_plain .silent⟩
      · simpa using (records l).completed _
      · simpa using records l.other
      · simpa using Feed.follows_of_not_read rfl _ _
      · simpa [Selector.rest, Selector.dropped] using other
      · simp
      · simp
      · simp only [enterSilent_sel, Selector.rest, completeFeed_sel, Selector.dropped, Bool.and_eq_true] at a
        simpa using aligned a.1
    next y hc =>
      obtain ⟨rfl, stands⟩ := cold y hc
      have read := Feed.isRead_of_isStandby stands
      refine (programOk_running (l := l.other) (.inr rfl)).mpr
        ⟨(Side.forall_iff l).mpr ⟨?_, ?_⟩, ?_, ?_, ?_, nofun, bounds.start_plain (.rise l.other)⟩
      · simpa [State.feed_onFeed] using (records l).completed _
      · simpa [State.feed_onFeed] using ((records l.other).repositioned read).setRole read .leader
      · simpa [State.feed_onFeed] using ((Feed.isStandby_iff _).mp stands).1
      · simp
      · simpa [State.feed_onFeed] using Feed.follows_of_not_read rfl _ _
  · exact h

/-- A transition that is over ends (log 5). -/
theorem State.ProgramOk.caughtUp : (caughtUp s).ProgramOk := by
  unfold Machine.caughtUp
  split
  next c =>
    simp only [Selector.over, Bool.and_eq_true, decide_eq_true_eq] at c
    exact h.transitionEnded (Nat.lt_of_lt_of_le (Nat.two_pow_pos _) c.2)
  · exact h

/-! ## ONAIR (R101, R102) -/

/-- A rise of the standby in SILENT begins, where it has been repositioned or not (R101). -/
theorem State.ProgramOk.standbyRises (hs : s.sel.state = .silent) (stands : (s.feed x).isStandby = true)
    {f : Feed} (hf : f.RecordsOk) (run : f.st = .running) :
    ((beginRise x (s.setFeed x f)).onSel fun v => { v with aligned := false }).ProgramOk := by
  obtain ⟨records, follows, alone, -, -, -, bounds⟩ := (programOk_silent hs).mp h
  have gone : (s.feed x.other).isRead = false := alone x (Feed.isRead_of_isStandby stands)
  refine (programOk_running (l := x) (.inr rfl)).mpr
    ⟨(Side.forall_iff x).mpr ⟨?_, ?_⟩, ?_, ?_, ?_, nofun, bounds.start_plain (.rise x)⟩
  · simpa [run] using hf.setRole (Feed.isRead_of_running run) .leader
  · simpa [State.feed_setFeed] using records x.other
  · simp
  · simp
  · exact Feed.follows_of_not_read (by simpa [State.feed_setFeed] using gone) _ _

theorem State.ProgramOk.onairSteps (feed : Nat) : (onairSteps feed s).2.ProgramOk := by
  unfold Machine.onairSteps
  split
  · exact h
  next x _ =>
    split
    · exact h
    · exact h
    · exact h
    next l hs =>
      split
      · exact h
      next ne =>
        split
        next c =>
          simp only [Bool.and_eq_true] at c
          obtain rfl := Side.eq_other_of_ne (Ne.symm ne)
          exact h.crossfaded hs c.1
        · exact h
    next hs =>
      split
      next stands =>
        have run := ((Feed.isStandby_iff _).mp stands).1
        split
        · have risen := h.standbyRises hs stands (h.records x) run
          exact risen.of_cast (fun y => by cases x <;> cases y <;> rfl) rfl
        · exact h.standbyRises hs stands ((h.records x).repositioned (Feed.isRead_of_running run)) run
      · exact h

/-! ## The judgements of a block event (R91, R92) -/

theorem State.ProgramOk.alignmentJudged : (judgeAlignment s).ProgramOk := by
  unfold judgeAlignment
  split
  next y hy =>
    split
    · exact h.of_cast (fun x => by simp) rfl
    · have flagged := h.flagged (State.isStandby_of_standby hy) (s.judgesAligned y) s.sel.fresh
      exact flagged.of_cast (fun x => by simp [setAligned]) rfl
  · exact h.of_cast (fun x => by simp) rfl

/-- A PRIMED feed beside a leader becomes the standby (R92). -/
theorem State.ProgramOk.standbyTaken (hs : s.sel.state = .onair l ∨ s.sel.state = .rise l)
    (primed : (s.feed l.other).st = .primed) : (takeStandby l.other s).ProgramOk := by
  obtain ⟨records, run, leads, -, -, plain⟩ := (programOk_running hs).mp h
  refine (programOk_running (s := takeStandby l.other s) hs).mpr
    ⟨(Side.forall_iff l).mpr ⟨?_, ?_⟩, ?_, ?_, fun _ => ⟨?_, ?_⟩, nofun, plain⟩
  · simpa using records l
  · simpa using (records l.other).taken primed .standby (.slaved _ _)
  · simpa using run
  · simpa using leads
  · simp [Feed.isStandby]
  · simp [Resampler.slaved]

/-- A PRIMED feed rises in SILENT (R92). -/
theorem State.ProgramOk.primedRises (hs : s.sel.state = .silent) (primed : (s.feed x).st = .primed) :
    (beginRise x s).ProgramOk := by
  obtain ⟨records, follows, -, aligned, -, -, bounds⟩ := (programOk_silent hs).mp h
  refine (programOk_running (l := x) (.inr rfl)).mpr
    ⟨(Side.forall_iff x).mpr ⟨?_, ?_⟩, ?_, ?_, ?_, fun a => ?_, bounds.start_plain (.rise x)⟩
  · simpa using (records x).taken primed .leader (records x).holdOk
  · simpa using records x.other
  · simp
  · simp
  · simpa [Selector.start] using follows x.other
  · obtain ⟨y, hy⟩ := aligned a
    obtain rfl | rfl := Side.eq_or_eq_other y x
    · simp [Feed.isStandby, primed] at hy
    · simpa using hy

theorem State.ProgramOk.primedTaken : (takePrimed s).ProgramOk := by
  unfold takePrimed
  split
  next hs =>
    split
    next a b =>
      rw [beq_iff_eq] at a b
      have both (x : Side) : (s.feed x).st = .primed := by cases x <;> assumption
      exact (h.primedRises hs (both s.sel.preferred)).standbyTaken (.inr rfl) (by simpa using both _)
    next a _ => exact h.primedRises hs (beq_iff_eq.mp a)
    next b => exact h.primedRises hs (beq_iff_eq.mp b)
    · exact h
  next l hs =>
    split
    next primed => exact h.standbyTaken (.inl hs) primed
    · exact h
  next l hs =>
    split
    next primed => exact h.standbyTaken (.inr hs) primed
    · exact h
  · exact h

theorem State.ProgramOk.servoed : (servoStep s).ProgramOk := by
  unfold servoStep
  split
  · exact h
  next x _ =>
    dsimp only
    split
    · have kept := h.castFeed (x := x)
        (f := { s.feed x with rs := (s.feed x).rs.servo (s.feed x).fill (s.feed x).setup.target }) rfl
      exact kept.of_cast (fun y => by simp) rfl
    · exact h

end Ops

theorem cast_of_core {f g : Feed} (h : f.core = g.core) : f.cast = g.cast := by
  have k := congrArg Feed.cast h
  exact k

theorem programOk_sees : SeesProgram State.ProgramOk where
  blind ha hb hs h := h.of_cast (fun x => by cases x <;> simp [ha, hb]) (by rw [hs])
  units e h := h.castFeed (cast_of_core e)
  awaiting _ h := h.of_cast (fun x => by cases x <;> rfl) rfl
  caughtUp h := h.caughtUp
  loss x h := h.loss x
  stopOnAir handover run leads h := h.stopOnAir handover run leads
  ended reason hx h := h.ended reason hx
  onairSteps feed h := h.onairSteps feed
  underrun x h := h.castFeed rfl
  servo h := h.servoed
  alignment h := h.alignmentJudged
  primed h := h.primedTaken

end Sys2Proof.Machine
end

section
/-!
O59: the program invariant under the house sample event and every command. A transition counts a house sample only
where it is not over, and it is not over once what is due has been settled (R89, log 5).
-/

namespace Sys2Proof.Machine

open Sys2Proof

/-! ## When a transition is over (R89) -/

theorem Selector.over_false_iff (v : Selector) : v.over = false ↔ (v.state.inTransition = true → v.formed < 2 ^ v.kx) := by
  rw [Selector.over, Bool.and_eq_false_imp]
  refine imp_congr_right fun _ => ?_
  rw [decide_eq_false_iff_not, Nat.not_le]
  rfl

theorem Selector.formed_of_abandoned {v : Selector} (h : v.abandoned = true) : v.formed = v.n0 + v.j := if_pos h

theorem Selector.formed_of_not {v : Selector} (h : v.abandoned = false) : v.formed = v.n := if_neg (by simp [h])

@[simp] theorem Selector.over_start (v : Selector) (st : SelState) : (v.start st).over = false := by
  simp [Selector.over, Selector.start, Selector.formed, Selector.len]

@[simp] theorem Selector.over_silent (v : Selector) : (v.rest .silent).over = false := rfl

@[simp] theorem Selector.over_onair (v : Selector) (x : Side) : (v.rest (.onair x)).over = false := rfl

@[simp] theorem Selector.over_dropped (v : Selector) (x : Side) (b : Bool) : (v.dropped x b).over = v.over := rfl

/-- With what is due taken, no transition is over (log 5). -/
theorem caughtUp_over (s : State) : (caughtUp s).sel.over = false := by
  unfold caughtUp
  split
  next c =>
    unfold endTransition
    split
    · rfl
    · split <;> rfl
    · split
      · rfl
      · exact Selector.over_start _ _
    next rise xfade fade =>
      unfold Selector.over at c
      cases e : s.sel.state with
      | silent => simp [e, SelState.inTransition] at c
      | onair x => simp [e, SelState.inTransition] at c
      | rise x => exact absurd e (rise x)
      | xfade x => exact absurd e (xfade x)
      | fade x => exact absurd e (fade x)
  next c => exact Bool.not_eq_true _ ▸ c

section Ops

variable {s : State} (h : s.ProgramOk) {l x : Side}
include h

theorem State.ProgramOk.fadeBack_over (hs : s.sel.state = .rise l) (reason : Reason) :
    (fadeBack l reason s).sel.over = false := by
  obtain ⟨-, -, -, -, -, -, mark, -⟩ := (programOk_running (.inr hs)).mp h
  unfold fadeBack
  split
  · rfl
  next some =>
    have : 0 < 2 ^ s.sel.kx := Nat.two_pow_pos _
    simp only [State.onSel_sel, setEnding_sel, Selector.over, SelState.inTransition, Selector.len, Selector.formed, mark,
      Bool.true_and, Bool.false_eq_true, if_false, decide_eq_false_iff_not]
    omega

theorem State.ProgramOk.abandon_over (hs : s.sel.state = .xfade l) (run : (s.feed l.other).st = .running)
    (before : s.sel.over = false) (y : Side) (reason : Reason) : (abandonXfade y reason s).sel.over = false := by
  obtain ⟨-, -, -, -, st, -⟩ := (programOk_xfade hs).mp h
  have mark : s.sel.abandoned = false := by
    rw [← Bool.not_eq_true]
    intro c
    simp [run, c] at st
  simpa [Selector.over, Selector.formed, Selector.len, mark] using before

theorem State.ProgramOk.loss_over (before : s.sel.over = false) (x : Side) : (lossTaken x s).sel.over = false := by
  unfold lossTaken
  split
  · exact before
  · exact before
  next run =>
    split
    · exact before
    · unfold selectorLoss
      split
      · split
        · unfold failover
          split
          · split
            · exact Selector.over_start _ _
            · exact Selector.over_start _ _
          · exact Selector.over_start _ _
        · exact before
      next l hs =>
        split
        next e => exact e ▸ h.fadeBack_over hs .laneLost
        · exact before
      next o hs =>
        split
        · exact before
        next ne =>
          obtain rfl := Side.eq_other_of_ne (Ne.symm ne)
          exact h.abandon_over hs run before _ _
      · exact before
  · exact before

theorem State.ProgramOk.stopOnAir_over (before : s.sel.over = false) (handover : Bool) (run : (s.feed x).st = .running)
    (leads : (s.feed x).role = .leader ∨ (s.feed x).role = .outgoing) :
    (Machine.stopOnAir x handover s).2.sel.over = false := by
  unfold Machine.stopOnAir
  split
  · split <;> exact Selector.over_start _ _
  next l hs =>
    obtain rfl := h.eq_leader (.inr hs) leads (Feed.isRead_of_running run)
    exact h.fadeBack_over hs .stopped
  next o hs =>
    split
    · exact before
    next ne =>
      obtain rfl := Side.eq_other_of_ne (Ne.symm ne)
      exact h.abandon_over hs run before _ _
  · exact before

omit h in
theorem onairSteps_over (before : s.sel.over = false) (feed : Nat) : (onairSteps feed s).2.sel.over = false := by
  unfold onairSteps
  split
  · exact before
  · split
    · exact before
    · exact before
    · exact before
    · split
      · exact before
      · split
        · exact Selector.over_start _ _
        · exact before
    · split
      · exact Selector.over_start _ _
      · exact before

omit h in
theorem takePrimed_over (before : s.sel.over = false) : (takePrimed s).sel.over = false := by
  unfold takePrimed
  split
  · split
    · exact Selector.over_start _ _
    · exact Selector.over_start _ _
    · exact Selector.over_start _ _
    · exact before
  · split <;> exact before
  · split <;> exact before
  · exact before

omit h in
theorem judgeAlignment_over (before : s.sel.over = false) : (judgeAlignment s).sel.over = false := by
  unfold judgeAlignment
  split
  · split <;> exact before
  · exact before

omit h in
@[simp] theorem servoStep_sel (s : State) : (servoStep s).sel = s.sel := by
  unfold servoStep
  split
  · rfl
  · dsimp only
    split <;> rfl

end Ops

/-- The program invariant, with no transition over. -/
abbrev State.ProgramSettled (s : State) : Prop := s.ProgramOk ∧ s.sel.over = false

theorem programSettled_sees : SeesProgram State.ProgramSettled where
  blind ha hb hs h := ⟨programOk_sees.blind ha hb hs h.1, hs ▸ h.2⟩
  units e h := ⟨programOk_sees.units e h.1, h.2⟩
  awaiting l h := ⟨programOk_sees.awaiting l h.1, h.2⟩
  caughtUp h := ⟨h.1.caughtUp, caughtUp_over _⟩
  loss x h := ⟨h.1.loss x, h.1.loss_over h.2 x⟩
  stopOnAir handover run leads h := ⟨h.1.stopOnAir handover run leads, h.1.stopOnAir_over h.2 handover run leads⟩
  ended reason hx h := ⟨h.1.ended reason hx, h.2⟩
  onairSteps feed h := ⟨h.1.onairSteps feed, onairSteps_over h.2 feed⟩
  underrun x h := ⟨programOk_sees.underrun x h.1, h.2⟩
  servo h := ⟨h.1.servoed, (congrArg Selector.over (servoStep_sel _)).trans h.2⟩
  alignment h := ⟨h.1.alignmentJudged, judgeAlignment_over h.2⟩
  primed h := ⟨h.1.primedTaken, takePrimed_over h.2⟩

/-! ## The house sample event (R69 to R71, R89, R103) -/

theorem State.ProgramSettled.inherit {s : State} (h : s.ProgramSettled) : (inheritRatio s).ProgramSettled := by
  unfold inheritRatio
  split
  · split
    · refine ⟨h.1.castFeed ?_, h.2⟩
      simp only [Feed.cast]
      split <;> rfl
    · exact h
  · exact h

/-- What stands between the advance of a house sample event and its count: the program invariant with no transition
over, and every feed of a crossfade that does not lead at the program position (R70). -/
abbrev State.Advanced (s : State) : Prop :=
  s.ProgramSettled ∧ ∀ x, s.sel.state = .xfade x → (s.feed x).rs.i = s.sel.pos ∧ (s.feed x).rs.phi = s.sel.phase

theorem State.Advanced.of_cast {s t : State} (h : s.Advanced) (feeds : ∀ x, (t.feed x).cast = (s.feed x).cast)
    (sel : t.sel.cast = s.sel.cast) : t.Advanced := by
  obtain ⟨⟨ok, before⟩, slaved⟩ := h
  refine ⟨⟨ok.of_cast feeds sel, ?_⟩, ?_⟩
  · simp only [Selector.cast, Prod.mk.injEq] at sel
    obtain ⟨state, -, abandoned, n0, j, n, kx, -⟩ := sel
    have same : t.sel.over = s.sel.over := by
      simp only [Selector.over, Selector.formed, Selector.len, state, abandoned, n0, j, n, kx]
      rfl
    exact same.trans before
  · simp only [Feed.cast, Prod.mk.injEq, forall_and] at feeds
    simp only [Selector.cast, Prod.mk.injEq] at sel
    obtain ⟨-, -, -, -, -, -, i, phi, -⟩ := feeds
    obtain ⟨state, -, -, -, -, -, -, pos, phase, -⟩ := sel
    simpa only [state, pos, phase, i, phi] using slaved

@[simp] theorem Feed.follow_isRead (f : Feed) (pos phase : Nat) : (f.follow pos phase).isRead = f.isRead := rfl

@[simp] theorem Feed.follow_isStandby (f : Feed) (pos phase : Nat) : (f.follow pos phase).isStandby = f.isStandby := rfl

theorem Feed.RecordsOk.follow {f : Feed} (h : f.RecordsOk) (pos phase : Nat) : (f.follow pos phase).RecordsOk := by
  unfold Feed.follow
  split
  next read => exact h.setRs read (.slaved pos phase)
  · exact h

theorem Feed.follow_position {f : Feed} (read : f.isRead = true) (pos phase : Nat) :
    (f.follow pos phase).rs.i = pos ∧ (f.follow pos phase).rs.phi = phase := by
  simp [Feed.follow, read, Resampler.slaved]

/-- A feed beside a leader whose position goes on follows it (R70). -/
theorem Feed.Follows.follow {f : Feed} {pos phase : Nat} (h : f.Follows pos phase) (pos' phase' : Nat) :
    (f.follow pos' phase').Follows pos' phase' := fun read =>
  ⟨(h read).1, Feed.follow_position (f := f) read pos' phase'⟩

section Advance

variable {s : State} {l : Side}

/-- The positions after the advance of a leader (R69, R70, R88). -/
theorem advancePositions_leader (hl : s.sel.state.leader = some l) :
    (advancePositions s).feed l = { s.feed l with rs := (s.feed l).rs.advanced } ∧
      (advancePositions s).feed l.other =
        (s.feed l.other).follow (s.feed l).rs.advanced.i (s.feed l).rs.advanced.phi ∧
      (advancePositions s).sel = { s.sel with pos := (s.feed l).rs.advanced.i, phase := (s.feed l).rs.advanced.phi } := by
  unfold advancePositions
  rw [hl]
  simp [State.feed_onFeed]

/-- The positions in SILENT stay (R88). -/
theorem advancePositions_silent (hs : s.sel.state = .silent) :
    (∀ x, (advancePositions s).feed x = (s.feed x).follow s.sel.pos s.sel.phase) ∧ (advancePositions s).sel = s.sel := by
  unfold advancePositions
  rw [hs]
  refine ⟨fun x => ?_, rfl⟩
  cases x <;> rfl

end Advance

theorem State.ProgramSettled.advanced {s : State} (h : s.ProgramSettled) : (advancePositions s).Advanced := by
  obtain ⟨ok, before⟩ := h
  have led {l : Side} (hl : s.sel.state.leader = some l) (read : (s.feed l).isRead = true) :
      (∀ x, ((advancePositions s).feed x).RecordsOk) ∧ (advancePositions s).sel.over = s.sel.over := by
    obtain ⟨lead, beside, sel⟩ := advancePositions_leader hl
    refine ⟨(Side.forall_iff l).mpr ⟨?_, ?_⟩, ?_⟩
    · rw [lead]
      exact (ok.records l).setRs read (ok.records l).holdOk.advanced
    · rw [beside]
      exact (ok.records l.other).follow _ _
    · rw [sel]
      rfl
  cases hs : s.sel.state with
  | silent =>
    obtain ⟨feeds, sel⟩ := advancePositions_silent hs
    obtain ⟨records, follows, alone, aligned, plain⟩ := (programOk_silent hs).mp ok
    refine ⟨⟨(programOk_silent (by rw [sel, hs])).mpr ⟨fun x => ?_, fun x => ?_, fun x => ?_, ?_, ?_⟩, ?_⟩, fun x hx => ?_⟩
    · exact feeds x ▸ (records x).follow _ _
    · rw [feeds x, sel]
      exact (follows x).follow _ _
    · simpa only [feeds, Feed.follow_isRead] using alone x
    · simpa only [feeds, sel, Feed.follow_isStandby] using aligned
    · rwa [sel]
    · rwa [sel]
    · simp [sel, hs] at hx
  | onair l =>
    obtain ⟨records, run, leads, other, aligned, plain⟩ := (programOk_running (.inl hs)).mp ok
    obtain ⟨lead, beside, sel⟩ := advancePositions_leader (s := s) (l := l) (by rw [hs]; rfl)
    obtain ⟨recs, still⟩ := led (l := l) (by rw [hs]; rfl) (Feed.isRead_of_running run)
    refine ⟨⟨(programOk_running (l := l) (.inl (by rw [sel, hs]))).mpr ⟨recs, ?_, ?_, ?_, ?_, ?_⟩, still.trans before⟩, fun x hx => ?_⟩
    · rw [lead]; exact run
    · rw [lead]; exact leads
    · rw [beside, sel]; exact other.follow _ _
    · rw [beside, sel]; exact aligned
    · rw [sel]; exact plain
    · simp [sel, hs] at hx
  | rise l =>
    obtain ⟨records, run, leads, other, aligned, plain⟩ := (programOk_running (.inr hs)).mp ok
    obtain ⟨lead, beside, sel⟩ := advancePositions_leader (s := s) (l := l) (by rw [hs]; rfl)
    obtain ⟨recs, still⟩ := led (l := l) (by rw [hs]; rfl) (Feed.isRead_of_running run)
    refine ⟨⟨(programOk_running (l := l) (.inr (by rw [sel, hs]))).mpr ⟨recs, ?_, ?_, ?_, ?_, ?_⟩, still.trans before⟩, fun x hx => ?_⟩
    · rw [lead]; exact run
    · rw [lead]; exact leads
    · rw [beside, sel]; exact other.follow _ _
    · rw [beside, sel]; exact aligned
    · rw [sel]; exact plain
    · simp [sel, hs] at hx
  | fade l =>
    obtain ⟨records, ending, leads, other, aligned, cold, mark, bounds⟩ := (programOk_fade hs).mp ok
    obtain ⟨lead, beside, sel⟩ := advancePositions_leader (s := s) (l := l) (by rw [hs]; rfl)
    obtain ⟨recs, still⟩ := led (l := l) (by rw [hs]; rfl) (Feed.isRead_of_ending ending)
    refine ⟨⟨(programOk_fade (l := l) (by rw [sel, hs])).mpr ⟨recs, ?_, ?_, ?_, ?_, ?_, ?_, ?_⟩, still.trans before⟩, fun x hx => ?_⟩
    · rw [lead]; exact ending
    · rw [lead]; exact leads
    · rw [beside, sel]; exact other.follow _ _
    · rw [beside, sel]; exact aligned
    · rw [beside, sel]; exact cold
    · rw [sel]; exact mark
    · rw [sel]; exact bounds
    · simp [sel, hs] at hx
  | xfade o =>
    obtain ⟨records, out, read, leads, st, -, aligned, cold, bounds⟩ := (programOk_xfade hs).mp ok
    obtain ⟨lead, beside, sel⟩ := advancePositions_leader (s := s) (l := o.other) (by rw [hs]; rfl)
    rw [Side.other_other] at beside
    have leadRead : (s.feed o.other).isRead = true := by
      rw [Feed.isRead_iff, st]
      cases s.sel.abandoned <;> simp
    obtain ⟨recs, still⟩ := led (l := o.other) (by rw [hs]; rfl) leadRead
    have slaved : ((advancePositions s).feed o).rs.i = (advancePositions s).sel.pos ∧
        ((advancePositions s).feed o).rs.phi = (advancePositions s).sel.phase := by
      rw [beside, sel]
      exact Feed.follow_position read _ _
    refine ⟨⟨(programOk_xfade (l := o) (by rw [sel, hs])).mpr
      ⟨recs, ?_, ?_, ?_, ?_, fun _ _ => slaved, ?_, ?_, ?_⟩, still.trans before⟩, fun x hx => ?_⟩
    · rw [beside]; exact out
    · rw [beside]; exact read
    · rw [lead]; exact leads
    · rw [lead, sel]; exact st
    · rw [sel]; exact aligned
    · rw [sel]; exact cold
    · rw [sel]; exact bounds
    · obtain rfl : o = x := by simpa [sel, hs] using hx
      exact slaved

theorem State.Advanced.riseUnaligned {s : State} (h : s.Advanced) : (riseUnaligns s).Advanced := by
  unfold riseUnaligns
  split
  next l hs =>
    split
    next c =>
      have flagged := h.1.1.flagged c.2 false s.sel.fresh
      refine ⟨⟨flagged.of_cast (fun x => by simp [setAligned]) rfl, h.1.2⟩, fun x hx => ?_⟩
      simp [setAligned, hs] at hx
    · exact h
  · exact h

theorem State.Advanced.failsMarked {s : State} (h : s.Advanced) (fails : List RingFail) : (markFails fails s).Advanced := by
  unfold markFails
  refine foldl_keeps (P := State.Advanced) (fun u e hu => ?_) fails h
  refine hu.of_cast (fun x => ?_) rfl
  simp only [markFail, damageSlot, State.feed_raise, State.feed_onFeed]
  split
  next e => rw [e]; rfl
  · rfl

/-- One more house sample of a transition that is not over (R89, R98). -/
theorem State.Advanced.counted {s : State} (h : s.Advanced) : (s.onSel fun v => v.counted.hears).ProgramOk := by
  obtain ⟨⟨⟨records, roles, ⟨aligned, cold, mark, n, nj, rest⟩, stands, -⟩, before⟩, slaved⟩ := h
  have same : s.sel.counted.hears.state = s.sel.state ∧ s.sel.counted.hears.abandoned = s.sel.abandoned ∧
      s.sel.counted.hears.aligned = s.sel.aligned ∧ s.sel.counted.hears.cold = s.sel.cold ∧
      (s.sel.counted.hears.kx, s.sel.counted.hears.policyKx) = (s.sel.kx, s.sel.policyKx) ∧
      (s.sel.counted.hears.pos, s.sel.counted.hears.phase) = (s.sel.pos, s.sel.phase) := by
    unfold Selector.counted
    split
    · split <;> exact ⟨rfl, rfl, rfl, rfl, rfl, rfl⟩
    · exact ⟨rfl, rfl, rfl, rfl, rfl, rfl⟩
  obtain ⟨state, abandoned, flag, coldSame, exps, posPhase⟩ := same
  obtain ⟨kx, policyKx⟩ := Prod.mk.inj exps
  obtain ⟨pos, phase⟩ := Prod.mk.inj posPhase
  have counts : s.sel.counted.hears.n ≤ 2 ^ s.sel.kx ∧
      s.sel.counted.hears.n0 + s.sel.counted.hears.j ≤ 2 ^ s.sel.kx := by
    unfold Selector.counted
    split
    next moving =>
      have left := (Selector.over_false_iff _).mp before moving
      split
      next abandons =>
        rw [Selector.formed_of_abandoned abandons] at left
        exact ⟨n, show s.sel.n0 + (s.sel.j + 1) ≤ _ by omega⟩
      next goes =>
        rw [Selector.formed_of_not (Bool.not_eq_true _ ▸ goes)] at left
        exact ⟨left, nj⟩
    · exact ⟨n, nj⟩
  refine ⟨fun x => by simpa using records x, ?_, ⟨?_, ?_, ?_, ?_, ?_, ?_⟩, ?_, fun x hx _ _ => ?_⟩
  · simp only [State.RolesOk, State.feed_onSel, State.onSel_sel, state, abandoned]
    exact roles
  · simpa [flag] using aligned
  · simpa [coldSame, state] using cold
  · simpa [abandoned, state] using mark
  · simpa [kx] using counts.1
  · simpa [kx] using counts.2
  · simpa [kx, policyKx] using rest
  · simpa [pos, phase] using stands
  · simpa [pos, phase] using slaved x (by simpa [state] using hx)

/-! ## Ends (R55, R103) -/

section Ends

variable {s : State} (h : s.ProgramOk) {l x : Side}
include h

theorem State.ProgramOk.standbyEnded (x : Side) : (standbyEnds x s).ProgramOk := by
  unfold standbyEnds
  split
  next c =>
    simp only [Bool.and_eq_true] at c
    exact h.completed (by simp [((Feed.isStandby_iff _).mp c.1).2]) _
  · exact h

/-- An aligned flag is the standby's, which stands beside the leader (R91). -/
theorem State.ProgramOk.standby_of_aligned (hl : s.sel.state.leader = some l) (a : s.sel.aligned = true) :
    (s.feed l.other).isStandby = true := by
  cases hs : s.sel.state with
  | silent => simp [hs, SelState.leader] at hl
  | onair x =>
    obtain rfl : x = l := by simpa [hs, SelState.leader] using hl
    exact ((programOk_running (.inl hs)).mp h).2.2.2.2.1 a
  | rise x =>
    obtain rfl : x = l := by simpa [hs, SelState.leader] using hl
    exact ((programOk_running (.inr hs)).mp h).2.2.2.2.1 a
  | fade x =>
    obtain rfl : x = l := by simpa [hs, SelState.leader] using hl
    exact ((programOk_fade hs).mp h).2.2.2.2.1 a
  | xfade o =>
    obtain ⟨-, -, -, -, -, -, unaligned, -⟩ := (programOk_xfade hs).mp h
    simp [unaligned] at a

end Ends

/-- A slaved feed after the leader's end: not read, with its records right (R55). -/
theorem completeWith_feed {s : State} {x : Side} (hx : (s.feed x).RecordsOk) (reason : Reason) :
    ((completeWith x reason s).feed x).RecordsOk ∧ ((completeWith x reason s).feed x).isRead = false ∧
      (completeWith x reason s).feed x.other = s.feed x.other ∧
      (completeWith x reason s).sel.aligned = (s.sel.aligned && !(s.feed x).isStandby) ∧
      (s.sel.Bounded → (completeWith x reason s).sel.Bounded) := by
  have ended (reason : Reason) :
      ((completeFeed x reason s).feed x).RecordsOk ∧ ((completeFeed x reason s).feed x).isRead = false ∧
        (completeFeed x reason s).feed x.other = s.feed x.other ∧
        (completeFeed x reason s).sel.aligned = (s.sel.aligned && !(s.feed x).isStandby) ∧
        (s.sel.Bounded → (completeFeed x reason s).sel.Bounded) :=
    ⟨by simpa using hx.completed reason, by simp, by simp, rfl, id⟩
  unfold completeWith
  split
  · exact ended _
  · exact ended _
  next notRunning notEnding =>
    have still : (s.feed x).isRead = false := by
      rw [← Bool.not_eq_true, Feed.isRead_iff]
      exact not_or.mpr ⟨notRunning, notEnding⟩
    have apart : (s.feed x).isStandby = false := by
      rw [← Bool.not_eq_true]
      exact fun c => by simpa [still] using Feed.isRead_of_isStandby c
    exact ⟨hx, still, rfl, by simp [apart], id⟩

section Ends

variable {s : State} (h : s.ProgramOk) {l : Side}
include h

/-- The leader's end: every feed that is read completes with it (R55, R103). -/
theorem State.ProgramOk.leaderEnded (hl : s.sel.state.leader = some l) : (leaderEnds l s).ProgramOk := by
  unfold leaderEnds
  dsimp only
  generalize (if (s.feed l).st = .ending then (s.feed l).ending.getD .stopped else (s.feed l).endReason) = reason
  obtain ⟨records, still, same, flag, bounds⟩ := completeWith_feed (s := completeFeed l reason s) (x := l.other)
    (by simpa using h.records l.other) reason
  rw [Side.other_other, completeFeed_feed, if_pos rfl] at same
  have gone : ((completeWith l.other reason (completeFeed l reason s)).feed l).isRead = false := by simp [same]
  refine (programOk_silent rfl).mpr ⟨(Side.forall_iff l).mpr ⟨?_, ?_⟩, (Side.forall_iff l).mpr ⟨?_, ?_⟩,
    (Side.forall_iff l).mpr ⟨?_, ?_⟩, fun a => ?_, (bounds h.bounded).rest_plain .silent⟩
  · simpa [same] using (h.records l).completed reason
  · simpa using records
  · exact Feed.follows_of_not_read (by simpa using gone) _ _
  · exact Feed.follows_of_not_read (by simpa using still) _ _
  · simp [gone]
  · simp [still]
  · simp only [enterSilent_sel, Selector.rest, flag, completeFeed_sel, Selector.dropped, Bool.and_eq_true] at a
    simp [h.standby_of_aligned hl a.1.1] at a

theorem State.ProgramOk.endsTaken : (takeEnds s).ProgramOk := by
  unfold takeEnds
  split
  · exact (h.standbyEnded .a).standbyEnded .b
  next l hl =>
    split
    · exact h.leaderEnded hl
    · exact h.standbyEnded _

end Ends

theorem State.ProgramOk.underrunNoted {s : State} (h : s.ProgramSettled) : (noteUnderrun s).ProgramSettled := by
  unfold noteUnderrun
  split
  · exact h
  next x _ =>
    split
    · exact h
    · split
      · have kept := h.1.castFeed (x := x) (f := { s.feed x with rs := { (s.feed x).rs with underrun := true } }) rfl
        exact ⟨kept.of_cast (fun y => by rw [State.feed_raise]; rfl) rfl, h.2⟩
      · exact h

theorem programOk_samples : KeptBySamples State.ProgramOk State.ProgramSettled where
  events := programOk_sees.events
  settled := programSettled_sees.events
  weaken h := h.1
  caughtUp h := ⟨h.caughtUp, caughtUp_over _⟩
  inherit h := h.inherit
  program _ _ h := ((State.ProgramOk.underrunNoted h).advanced.riseUnaligned.failsMarked _).counted.endsTaken

/-! ## Commands (R34, R50, R51, R62, R108) -/

/-- A feed that is not read is replaced by one that is not read. -/
theorem State.ProgramOk.replaced {s : State} (h : s.ProgramOk) {x : Side} {f : Feed} (still : (s.feed x).isRead = false)
    (hf : f.isRead = false) (records : f.RecordsOk) : (s.setFeed x f).ProgramOk := by
  have role : (s.feed x).role = .none := by
    obtain ⟨-, -, -, roles, -⟩ := h.records x
    exact roles still
  have apart : (s.feed x).role ≠ .leader := by simp [role]
  have unflagged (c : (s.feed x).isStandby = true) : False := by simpa [still] using Feed.isRead_of_isStandby c
  have recs (y : Side) : ((s.setFeed x f).feed y).RecordsOk := by
    rw [State.feed_setFeed]
    split
    · exact records
    · exact h.records y
  cases hs : s.sel.state with
  | silent =>
    obtain ⟨-, follows, alone, aligned, plain⟩ := (programOk_silent hs).mp h
    refine (programOk_silent (s := s.setFeed x f) hs).mpr ⟨recs, (Side.forall_iff x).mpr ⟨?_, ?_⟩,
      (Side.forall_iff x).mpr ⟨?_, ?_⟩, fun a => ?_, plain⟩
    · simpa using Feed.follows_of_not_read hf _ _
    · simpa [State.feed_setFeed] using follows x.other
    · simp [hf]
    · simp [hf]
    · obtain ⟨y, hy⟩ := aligned a
      refine ⟨y, ?_⟩
      rw [State.feed_setFeed, if_neg (by rintro rfl; exact unflagged hy)]
      exact hy
  | onair l =>
    obtain ⟨-, run, leads, -, aligned, plain⟩ := (programOk_running (.inl hs)).mp h
    obtain rfl := h.ne_leader (.inl hs) apart
    refine (programOk_running (s := s.setFeed l.other f) (.inl hs)).mpr
      ⟨recs, ?_, ?_, ?_, fun a => (unflagged (aligned a)).elim, plain⟩
    · simpa [State.feed_setFeed] using run
    · simpa [State.feed_setFeed] using leads
    · simpa using Feed.follows_of_not_read hf _ _
  | rise l =>
    obtain ⟨-, run, leads, -, aligned, plain⟩ := (programOk_running (.inr hs)).mp h
    obtain rfl := h.ne_leader (.inr (.inl hs)) apart
    refine (programOk_running (s := s.setFeed l.other f) (.inr hs)).mpr
      ⟨recs, ?_, ?_, ?_, fun a => (unflagged (aligned a)).elim, plain⟩
    · simpa [State.feed_setFeed] using run
    · simpa [State.feed_setFeed] using leads
    · simpa using Feed.follows_of_not_read hf _ _
  | fade l =>
    obtain ⟨-, ending, leads, -, aligned, cold, rest⟩ := (programOk_fade hs).mp h
    obtain rfl := h.ne_leader (.inr (.inr hs)) apart
    refine (programOk_fade (s := s.setFeed l.other f) hs).mpr
      ⟨recs, ?_, ?_, ?_, fun a => (unflagged (aligned a)).elim, fun y e => (unflagged (cold y e).2).elim, rest⟩
    · simpa [State.feed_setFeed] using ending
    · simpa [State.feed_setFeed] using leads
    · simpa using Feed.follows_of_not_read hf _ _
  | xfade o => exact absurd hs (h.no_xfade (x := x) (by simp [role]) o)

/-- Both feeds replaced, each by one that is not read. -/
theorem State.ProgramOk.replacedBoth {s : State} (h : s.ProgramOk) {a b : Feed} (stillA : s.feedA.isRead = false)
    (stillB : s.feedB.isRead = false) (ha : a.isRead = false) (hb : b.isRead = false) (recordsA : a.RecordsOk)
    (recordsB : b.RecordsOk) : State.ProgramOk { s with feedA := a, feedB := b } :=
  (h.replaced (x := .a) stillA ha recordsA).replaced (x := .b) stillB hb recordsB

theorem Feed.not_read_of_rest {f : Feed} (h : f.inPlay = false) : f.isRead = false := by
  unfold Feed.inPlay at h
  unfold Feed.isRead
  cases e : f.st <;> simp_all

/-- A feed at rest under a new setup keeps its records; a pending PLAY may be dropped (R11, R34, R45). -/
theorem Feed.RecordsOk.reset {f g : Feed} (h : f.RecordsOk) (rest : f.inPlay = false)
    (same : (g.st, g.role, g.startPos, g.ending, g.completion) = (f.st, f.role, f.startPos, f.ending, f.completion))
    (rs : (g.rs.i, g.rs.phi, g.rs.held) = (f.rs.i, f.rs.phi, f.rs.held))
    (pend : g.pendingPlay = f.pendingPlay ∨ g.pendingPlay = none) : g.isRead = false ∧ g.RecordsOk := by
  simp only [Prod.mk.injEq] at same rs
  obtain ⟨st, role, start, ending, completion⟩ := same
  obtain ⟨i, phi, held⟩ := rs
  have read : g.isRead = f.isRead := by rw [Feed.isRead, Feed.isRead, st]
  refine ⟨read.trans (Feed.not_read_of_rest rest), ?_⟩
  unfold Feed.RecordsOk at *
  rw [completion, st, ending, read, role, i, phi, held, start]
  obtain ⟨c, e, p, others⟩ := h
  refine ⟨c, e, ?_, others⟩
  obtain pend | pend := pend
  · rwa [pend]
  · rw [pend]
    nofun

theorem Feed.RecordsOk.fallBack {f : Feed} (h : f.RecordsOk) (rest : f.inPlay = false) (house : Rate) (pages : Nat) :
    (f.fallBack house pages).feed.isRead = false ∧ (f.fallBack house pages).feed.RecordsOk := by
  refine h.reset rest rfl rfl ?_
  unfold Feed.fallBack
  dsimp only
  split
  · exact .inl rfl
  · exact .inr rfl

theorem Feed.RecordsOk.repartitioned {f : Feed} (h : f.RecordsOk) (rest : f.inPlay = false) (house : Rate)
    (pages : Nat) : (f.repartitioned house pages).feed.isRead = false ∧ (f.repartitioned house pages).feed.RecordsOk := by
  unfold Feed.repartitioned
  split
  · exact h.reset rest rfl rfl (.inl rfl)
  · exact h.fallBack rest house pages

theorem Feed.RecordsOk.reclassed {f : Feed} (h : f.RecordsOk) (rest : f.inPlay = false) (house : Rate)
    (pages : Nat) : (f.reclassed house pages).feed.isRead = false ∧ (f.reclassed house pages).feed.RecordsOk := by
  unfold Feed.reclassed
  split
  · exact h.reset rest rfl rfl (.inl rfl)
  · exact h.fallBack rest house pages

/-- A PLAY is taken where no feed is read (R50). -/
theorem Feed.takePlay_records (f : Feed) (v : PlayParams) (pend : f.pendingPlay = none) :
    (f.takePlay v).RecordsOk :=
  (Feed.recordsOk_waiting (.inl rfl)).mpr ⟨rfl, rfl, pend, rfl, ⟨rfl, rfl⟩, nofun⟩

theorem Feed.acknowledged_records {f : Feed} (h : f.RecordsOk) (complete : f.st = .complete) :
    f.acknowledged.isRead = false ∧ f.acknowledged.RecordsOk := by
  obtain ⟨-, ending, role, hold⟩ := (Feed.recordsOk_complete complete).mp h
  unfold Feed.acknowledged
  split
  · exact ⟨rfl, (Feed.recordsOk_waiting (.inl rfl)).mpr ⟨rfl, rfl, rfl, rfl, ⟨rfl, rfl⟩, nofun⟩⟩
  next none => exact ⟨rfl, (Feed.recordsOk_idle rfl).mpr ⟨rfl, ending, none, role, hold⟩⟩

theorem Feed.idle_records {f : Feed} (st : f.st = .idle) (role : f.role = .none) (ending : f.ending = none)
    (completion : f.completion = none) (pend : f.pendingPlay = none) (held : f.rs.held = false) :
    f.isRead = false ∧ f.RecordsOk :=
  ⟨by rw [Feed.isRead, st], (Feed.recordsOk_idle st).mpr ⟨completion, ending, pend, role, fun c => by simp [held] at c⟩⟩

/-- A SILENT selector with both feeds IDLE (R64, R65, R107, R108). -/
theorem State.programOk_idle {s : State} (hs : s.sel.state = .silent) (plain : s.sel.Plain)
    (unaligned : s.sel.aligned = false) (a : s.feedA.isRead = false ∧ s.feedA.RecordsOk)
    (b : s.feedB.isRead = false ∧ s.feedB.RecordsOk) : s.ProgramOk := by
  have still (x : Side) : (s.feed x).isRead = false := by
    cases x
    · exact a.1
    · exact b.1
  refine (programOk_silent hs).mpr ⟨fun x => ?_, fun x => Feed.follows_of_not_read (still x) _ _, fun x _ => still _,
    fun c => by simp [unaligned] at c, plain⟩
  cases x
  · exact a.2
  · exact b.2

theorem feedReset_records (house : Rate) : (feedReset house).isRead = false ∧ (feedReset house).RecordsOk :=
  Feed.idle_records rfl rfl rfl rfl rfl rfl

theorem selectorPowerOn_plain (v : Selector) (h : v.cold = none ∧ v.abandoned = false ∧ v.n = 0 ∧ v.n0 = 0 ∧ v.j = 0 ∧
    v.kx = 8 ∧ v.policyKx = 8) : v.Plain := by
  obtain ⟨cold, mark, n, n0, j, kx, policyKx⟩ := h
  refine ⟨cold, mark, ?_⟩
  simp [Selector.Bounded, n, n0, j, kx, policyKx]

/-- A placement may make a SEEKING feed PRIMED (R52). -/
theorem State.ProgramOk.primed {s : State} (h : s.ProgramOk) (x : Side) : (s.onFeed x Feed.primes).ProgramOk := by
  by_cases seeking : (s.feed x).st = .seeking
  · obtain ⟨completion, ending, pend, role, atStart, hold⟩ := (Feed.recordsOk_waiting (.inl seeking)).mp (h.records x)
    have waits : (s.feed x).primes.st = .seeking ∨ (s.feed x).primes.st = .primed := by
      unfold Feed.primes
      dsimp only
      split
      · exact .inr rfl
      · exact .inl seeking
    have still : (s.feed x).primes.isRead = false := by
      obtain e | e := waits <;> rw [Feed.isRead, e]
    exact h.replaced (by rw [Feed.isRead, seeking]) still
      ((Feed.recordsOk_waiting waits).mpr ⟨completion, ending, pend, role, atStart, hold⟩)
  · refine h.castFeed ?_
    simp [Feed.primes, seeking, Feed.cast]

@[simp] theorem Feed.markEnd_cast (f : Feed) (t : Nat) : (f.markEnd t).cast = f.cast := rfl

@[simp] theorem Feed.goodBlock_cast (f : Feed) (l : Lane) : (f.goodBlock l).cast = f.cast := rfl

@[simp] theorem Feed.setSlot_cast (f : Feed) (t : Nat) (v : Slot) : (f.setSlot t v).cast = f.cast := rfl

@[simp] theorem Feed.setLast_cast (f : Feed) (l : Lane) (v : Option Nat) : (f.setLast l v).cast = f.cast := by
  cases l <;> rfl

theorem Feed.openGap_cast (f : Feed) (t : Nat) : (f.openGap t).cast = f.cast := by
  have same := congrArg Feed.cast (f.openGap_kept t).1
  exact same

theorem State.ProgramOk.placed {s : State} (h : s.ProgramOk) (x : Side) (l : Lane) (t : Nat) (valid ended : Bool)
    (samples : List Byte) : (Machine.placed x l t valid ended samples s).ProgramOk := by
  have written : (if valid then s.withSamples x l t samples else s).ProgramOk := by
    split
    · exact h.of_cast (fun y => by cases y <;> rfl) rfl
    · exact h
  have slotted (u : State) (hu : u.ProgramOk) : (placeSlot x l t valid u).ProgramOk := by
    unfold placeSlot
    dsimp only
    split
    · have kept := hu.castFeed (x := x) (f := { ((u.feed x).openGap t).setSlot t (newSlot (u.feed x).setup l t valid) with
        h := t + 32 }) ((u.feed x).openGap_cast t)
      exact kept.of_cast (fun y => by simp only [State.feed_raiseIf]) rfl
    · have kept := hu.castFeed (x := x) (f := (u.feed x).setSlot t (((u.feed x).slotAt t).joined l valid)) rfl
      exact kept.of_cast (fun y => by simp only [State.feed_raiseIf]) rfl
  have skewed (u : State) (hu : u.ProgramOk) : (skewCheck x l t u).ProgramOk := by
    unfold skewCheck
    split
    · refine foldl_keeps (P := State.ProgramOk) (fun v e hv => ?_) _ hu
      have kept := hv.castFeed (x := x)
        (f := (v.feed x).setSlot e { (v.feed x).slotAt e with state := .damaged }) rfl
      exact kept.of_cast (fun y => by rw [State.feed_raise]; rfl) rfl
    · exact hu
  have lasted := (slotted _ written).castFeed (x := x)
    (f := ((placeSlot x l t valid (if valid then s.withSamples x l t samples else s)).feed x).setLast l (some t))
    (Feed.setLast_cast ..)
  have settled (u : State) (hu : u.ProgramOk) : (u.onFeed x fun f =>
      let f1 := if valid && ended then f.markEnd t else f
      let f2 := if valid && !(s.feed x).intakeEnded then f1.goodBlock l else f1
      f2.primes.paceSettled (s.feed x).fill s.starting).ProgramOk := by
    have marked := hu.castFeed (x := x)
      (f := if valid && !(s.feed x).intakeEnded then (if valid && ended then (u.feed x).markEnd t else u.feed x).goodBlock l
        else if valid && ended then (u.feed x).markEnd t else u.feed x) (by split <;> split <;> rfl)
    refine (marked.primed x).of_cast (fun y => ?_) rfl
    simp only [State.feed_onFeed, State.feed_setFeed]
    split <;> rfl
  exact settled _ (skewed _ lasted)

theorem State.ProgramOk.judged {s : State} (h : s.ProgramOk) (x : Side) (l : Lane) (v : LaneHeader)
    (body : List Byte) : (judgeBlock x l v body s).ProgramOk := by
  unfold judgeBlock
  dsimp only
  split
  · exact h
  · split
    · split
      · split
        · exact h
        · exact h.of_cast (fun y => by rw [State.feed_raise]) rfl
        · split
          · exact h.placed x l _ _ _ _
          · exact h
      · exact h
    · split
      · exact h.placed x l _ _ _ _
      · exact h

theorem programOk_commands : KeptByCommands State.ProgramOk where
  toKeptByEvents := programOk_sees.events
  judgeBlock x l v body h := h.judged x l v body
  feedset _ _ h := h.castFeed rfl
  takePlay {s x v} _ idle h := by
    obtain ⟨-, -, pend, -⟩ := (Feed.recordsOk_idle idle).mp (h.records x)
    exact h.replaced (by rw [Feed.isRead, idle]) rfl ((s.feed x).takePlay_records v pend)
  holdPlay {s x v} _ complete h := by
    obtain ⟨completion, ending, role, hold⟩ := (Feed.recordsOk_complete complete).mp (h.records x)
    have still : (s.feed x).isRead = false := by rw [Feed.isRead, complete]
    exact h.replaced still still ((Feed.recordsOk_complete (f := { s.feed x with pendingPlay := some v }) complete).mpr
      ⟨completion, ending, role, hold⟩)
  dropPlay {s x} complete h := by
    obtain ⟨completion, ending, role, hold⟩ := (Feed.recordsOk_complete complete).mp (h.records x)
    have still : (s.feed x).isRead = false := by rw [Feed.isRead, complete]
    exact h.replaced still still ((Feed.recordsOk_complete (f := { s.feed x with pendingPlay := none }) complete).mpr
      ⟨completion, ending, role, hold⟩)
  acknowledged {s x} complete h := by
    obtain ⟨still, records⟩ := Feed.acknowledged_records (h.records x) complete
    exact h.replaced (by rw [Feed.isRead, complete]) still records
  policy {s patch x kx} least most h := by
    obtain ⟨records, roles, ⟨aligned, cold, mark, n, nj, lo, hi, -⟩, slaved⟩ := h
    exact ⟨fun y => by simpa using records y, by simp only [State.RolesOk, State.feed_onSel]; exact roles,
      ⟨by simpa using aligned, by simpa using cold, mark, n, nj, lo, hi, least, most⟩, by simpa [State.SlavedOk] using slaved⟩
  clockset {s source house n} _ _ free h := by
    obtain rfl | free := free
    · exact h.of_cast (fun y => by cases y <;> simp [State.clockFeed]) rfl
    · simp only [State.classFree, Bool.and_eq_true, Feed.atRest, Bool.not_eq_true'] at free
      obtain ⟨⟨-, restA⟩, restB⟩ := free
      have changed {x : Side} (rest : (s.feed x).inPlay = false) :
          (s.clockFeed x house).feed.isRead = false ∧ (s.clockFeed x house).feed.RecordsOk := by
        unfold State.clockFeed
        split
        · exact ⟨Feed.not_read_of_rest rest, h.records x⟩
        · exact (h.records x).reclassed rest house _
      obtain ⟨stillA, recordsA⟩ := changed (x := .a) restA
      obtain ⟨stillB, recordsB⟩ := changed (x := .b) restB
      have both := h.replacedBoth (Feed.not_read_of_rest restA) (Feed.not_read_of_rest restB) stillA stillB recordsA recordsB
      exact both.of_cast (fun y => by cases y <;> rfl) rfl
  partition {s} a b restA restB h := by
    obtain ⟨stillA, recordsA⟩ := Feed.RecordsOk.repartitioned (h.records .a) restA s.clock.rateClass a
    obtain ⟨stillB, recordsB⟩ := Feed.RecordsOk.repartitioned (h.records .b) restB s.clock.rateClass b
    exact h.replacedBoth (Feed.not_read_of_rest restA) (Feed.not_read_of_rest restB) stillA stillB recordsA recordsB
  flushed h := State.programOk_idle rfl (h.bounded.rest_plain .silent) rfl (Feed.idle_records rfl rfl rfl rfl rfl rfl)
    (Feed.idle_records rfl rfl rfl rfl rfl rfl)
  fetched _ h := h.of_cast (fun y => by cases y <;> rfl) rfl
  routed _ h := h.of_cast (fun y => by cases y <;> rfl) rfl
  powerOn _ _ := State.programOk_idle rfl (selectorPowerOn_plain _ ⟨rfl, rfl, rfl, rfl, rfl, rfl, rfl⟩) rfl
    (feedReset_records _) (feedReset_records _)
  resetAssert _ := State.programOk_idle rfl (selectorPowerOn_plain _ ⟨rfl, rfl, rfl, rfl, rfl, rfl, rfl⟩) rfl
    (feedReset_records _) (feedReset_records _)

/-- Settles O59: the invariant holds by the selector's state, each operation takes it from one state to the next, and a
transition counts a house sample only where it is not over. -/
theorem stepKeepsProgram : Obligations.StepKeepsProgram := fun _ _ =>
  step_keeps programOk_commands programOk_samples fun _ h => h.of_cast (fun x => by cases x <;> rfl) rfl

end Sys2Proof.Machine
end

section
/-!
O60: the ratios. A lead is handed over only between feeds of equal nominal ratios, so the incoming feed's inherited
ratio lies within its own clamp range (R71, R74, R91).
-/

namespace Sys2Proof.Machine

open Sys2Proof

/-! ## What the ratio invariant sees -/

/-- Both feeds have the same nominal ratio. -/
def State.SameNominal (s : State) : Prop := s.feedA.rs.rNom = s.feedB.rs.rNom

theorem State.SameNominal.other {s : State} (h : s.SameNominal) (x : Side) :
    (s.feed x.other).rs.rNom = (s.feed x).rs.rNom := by
  cases x
  · exact h.symm
  · exact h

theorem State.sameNominal_of_other {s : State} {x : Side} (h : (s.feed x.other).rs.rNom = (s.feed x).rs.rNom) :
    s.SameNominal := by
  cases x
  · exact h.symm
  · exact h

/-- Wherever a lead can be handed over the nominal ratios are equal (R71, R91). -/
structure State.Level (s : State) : Prop where
  onair {l : Side} : s.sel.state = .onair l → s.sel.aligned = true → s.SameNominal
  rise {l : Side} : s.sel.state = .rise l → s.sel.aligned = true → 0 < s.sel.n → s.SameNominal
  xfade {l : Side} : s.sel.state = .xfade l → s.sel.formed = 0 → s.SameNominal

theorem State.ratiosOk_iff {s : State} : s.RatiosOk ↔ (∀ x, (s.feed x).RatioOk) ∧ s.Level := by
  refine and_congr_right fun _ => ?_
  cases hs : s.sel.state with
  | silent => exact ⟨fun _ => ⟨by simp [hs], by simp [hs], by simp [hs]⟩, fun _ => trivial⟩
  | fade l => exact ⟨fun _ => ⟨by simp [hs], by simp [hs], by simp [hs]⟩, fun _ => trivial⟩
  | onair l => exact ⟨fun h => ⟨fun _ => h, by simp [hs], by simp [hs]⟩, fun h => h.onair hs⟩
  | rise l => exact ⟨fun h => ⟨by simp [hs], fun _ => h, by simp [hs]⟩, fun h => h.rise hs⟩
  | xfade l => exact ⟨fun h => ⟨by simp [hs], by simp [hs], fun _ => h⟩, fun h => h.xfade hs⟩

/-- The fields of a feed that the ratio invariant sees. -/
def Feed.ratio (f : Feed) : Nat × Nat × FeedMode := (f.rs.rNom, f.rs.r, f.setup.mode)

theorem Feed.RatioOk.of_ratio {f g : Feed} (h : f.RatioOk) (e : g.ratio = f.ratio) : g.RatioOk := by
  simp only [Feed.ratio, Prod.mk.injEq] at e
  obtain ⟨rNom, r, mode⟩ := e
  unfold Feed.RatioOk
  rwa [rNom, r, mode]

/-- A feed at its nominal ratio (R67, R71). -/
theorem Feed.ratioOk_nominal {f : Feed} (h : f.rs.r = f.rs.rNom) : f.RatioOk :=
  ⟨by omega, by omega, fun _ => h⟩

theorem State.sameNominal_of_ratios {s t : State} (h : s.SameNominal) (e : ∀ x, (t.feed x).ratio = (s.feed x).ratio) :
    t.SameNominal := by
  have a := congrArg Prod.fst (e .a)
  have b := congrArg Prod.fst (e .b)
  exact a.trans (h.trans b.symm)

/-- Where the ratios stay, the invariant follows from where leads can be handed over. -/
theorem State.RatiosOk.moved {s t : State} (h : s.RatiosOk) (e : ∀ x, (t.feed x).ratio = (s.feed x).ratio)
    (level : t.Level) : t.RatiosOk :=
  State.ratiosOk_iff.mpr ⟨fun x => ((State.ratiosOk_iff.mp h).1 x).of_ratio (e x), level⟩

/-- Neither on air, nor in a rise, nor in a crossfade no lead is handed over. -/
theorem State.level_of_code {s : State} (h : s.sel.state = .silent ∨ ∃ l, s.sel.state = .fade l) : s.Level := by
  obtain h | ⟨l, h⟩ := h <;> exact ⟨by simp [h], by simp [h], by simp [h]⟩

theorem State.level_onair {s : State} {l : Side} (hs : s.sel.state = .onair l)
    (h : s.sel.aligned = true → s.SameNominal) : s.Level := ⟨fun _ => h, by simp [hs], by simp [hs]⟩

theorem State.level_rise {s : State} {l : Side} (hs : s.sel.state = .rise l)
    (h : s.sel.aligned = true → 0 < s.sel.n → s.SameNominal) : s.Level := ⟨by simp [hs], fun _ => h, by simp [hs]⟩

theorem State.level_xfade {s : State} {l : Side} (hs : s.sel.state = .xfade l)
    (h : s.sel.formed = 0 → s.SameNominal) : s.Level := ⟨by simp [hs], by simp [hs], fun _ => h⟩

/-- A state whose selector stands alike, or has lost its aligned flag, with the same ratios. -/
theorem State.RatiosOk.kept {s t : State} (h : s.RatiosOk) (e : ∀ x, (t.feed x).ratio = (s.feed x).ratio)
    (state : t.sel.state = s.sel.state) (n : t.sel.n = s.sel.n) (formed : t.sel.formed = s.sel.formed)
    (aligned : t.sel.aligned = true → s.sel.aligned = true) : t.RatiosOk := by
  obtain ⟨-, level⟩ := State.ratiosOk_iff.mp h
  refine h.moved e ⟨fun hs a => ?_, fun hs a c => ?_, fun hs c => ?_⟩
  · exact State.sameNominal_of_ratios (level.onair (state ▸ hs) (aligned a)) e
  · exact State.sameNominal_of_ratios (level.rise (state ▸ hs) (aligned a) (n ▸ c)) e
  · exact State.sameNominal_of_ratios (level.xfade (state ▸ hs) (formed ▸ c)) e

/-- Both invariants of the program. -/
abbrev State.TracksOk (s : State) : Prop := s.ProgramOk ∧ s.RatiosOk

/-! ## The selector's operations -/

section Ratios

variable (s : State) (x y : Side)

@[simp] theorem setRole_ratio (role : ProgRole) : ((setRole x role s).feed y).ratio = (s.feed y).ratio := by
  rw [setRole_feed]
  split
  next e => rw [e]; rfl
  · rfl

@[simp] theorem setEnding_ratio (reason : Reason) : ((setEnding x reason s).feed y).ratio = (s.feed y).ratio := by
  rw [setEnding_feed]
  split
  next e => rw [e]; rfl
  · rfl

@[simp] theorem completeFeed_ratio (reason : Reason) : ((completeFeed x reason s).feed y).ratio = (s.feed y).ratio := by
  rw [completeFeed_feed]
  split
  next e => rw [e]; rfl
  · rfl

@[simp] theorem beginXfade_ratio : ((beginXfade x s).feed y).ratio = (s.feed y).ratio := by
  rw [beginXfade_feed]
  rfl

@[simp] theorem beginRise_ratio : ((beginRise x s).feed y).ratio = (s.feed y).ratio := by
  rw [beginRise_feed]
  split
  next e => rw [e]; rfl
  · rfl

@[simp] theorem takeStandby_ratio : ((takeStandby x s).feed y).ratio = (s.feed y).ratio := by
  rw [takeStandby_feed]
  split
  next e => rw [e]; rfl
  · rfl

@[simp] theorem finishOutgoing_ratio : ((finishOutgoing x s).feed y).ratio = (s.feed y).ratio := by
  unfold finishOutgoing
  split
  · exact completeFeed_ratio ..
  · split
    · exact completeFeed_ratio ..
    · rw [State.feed_onSel, setRole_ratio]
  · rfl

@[simp] theorem fadeBack_ratio (reason : Reason) : ((fadeBack x reason s).feed y).ratio = (s.feed y).ratio := by
  unfold fadeBack
  split
  · rw [enterSilent_feed, completeFeed_ratio, setEnding_ratio]
  · rw [State.feed_onSel, setEnding_ratio]

end Ratios

theorem State.RatiosOk.setEnding {s : State} (h : s.RatiosOk) (x : Side) (reason : Reason) :
    (setEnding x reason s).RatiosOk := h.kept (setEnding_ratio s x · reason) rfl rfl rfl id

theorem State.RatiosOk.raised {s : State} (h : s.RatiosOk) (k : Kind) (d : List Byte) : (raise k d s).RatiosOk :=
  h.kept (fun x => by rw [State.feed_raise]) rfl rfl rfl id

/-- A feed whose ratio is in range too, in a state with no lead to hand over or where nominal ratios stay. -/
theorem State.RatiosOk.onFeed {s : State} (h : s.RatiosOk) {x : Side} {f : Feed} (hf : f.RatioOk)
    (nominal : f.rs.rNom = (s.feed x).rs.rNom) : (s.setFeed x f).RatiosOk := by
  obtain ⟨ratios, level⟩ := State.ratiosOk_iff.mp h
  have same : s.SameNominal → (s.setFeed x f).SameNominal := fun e => by
    refine State.sameNominal_of_other (x := x) ?_
    rw [State.feed_setFeed, if_neg (Side.other_ne x), State.feed_setFeed_self, nominal]
    exact e.other x
  refine State.ratiosOk_iff.mpr ⟨fun y => ?_, ⟨fun hs a => same (level.onair hs a), fun hs a c => same (level.rise hs a c),
    fun hs c => same (level.xfade hs c)⟩⟩
  rw [State.feed_setFeed]
  split
  · exact hf
  · exact ratios y

section Ops

variable {s : State} (h : s.TracksOk) {l x : Side}
include h

theorem State.TracksOk.level : s.Level := (State.ratiosOk_iff.mp h.2).2

theorem State.TracksOk.ended (x : Side) (reason : Reason) : (completeFeed x reason s).RatiosOk :=
  h.2.kept (completeFeed_ratio s x · reason) rfl rfl rfl fun a => by
    simp only [completeFeed_sel, Selector.dropped, Bool.and_eq_true] at a
    exact a.1

theorem State.TracksOk.fadedBack (reason : Reason) : (fadeBack l reason s).RatiosOk := by
  refine h.2.moved (fadeBack_ratio s l · reason) (State.level_of_code ?_)
  unfold fadeBack
  split
  · exact .inl rfl
  · exact .inr ⟨l, rfl⟩

/-- A crossfade begins with an aligned standby alone (R91, R94, R100, R101). -/
theorem State.TracksOk.crossfaded (hs : s.sel.state = .onair l) (a : s.sel.aligned = true) :
    (beginXfade l s).RatiosOk :=
  h.2.moved (beginXfade_ratio s l) (State.level_xfade rfl fun _ =>
    State.sameNominal_of_ratios (h.level.onair hs a) (beginXfade_ratio s l))

theorem State.TracksOk.abandons (hs : s.sel.state = .xfade l) (run : (s.feed l.other).st = .running)
    (reason : Reason) : (abandonXfade l.other reason s).RatiosOk := by
  obtain ⟨-, -, -, -, st, -⟩ := (programOk_xfade hs).mp h.1
  have mark : s.sel.abandoned = false := by
    rw [← Bool.not_eq_true]
    intro c
    simp [run, c] at st
  refine h.2.kept (fun y => by rw [abandonXfade_feed, setEnding_ratio]) rfl rfl ?_ id
  simp [Selector.formed, mark]

theorem State.TracksOk.loss (x : Side) : (lossTaken x s).RatiosOk := by
  unfold lossTaken
  split
  · exact h.ended x .laneLost
  · exact h.ended x .laneLost
  next run =>
    split
    · exact h.ended x .laneLost
    · unfold selectorLoss
      split
      next l hs =>
        split
        next e =>
          subst e
          have faded (cold : Option Side) : (setEnding l .laneLost (beginFade l .loss cold s)).RatiosOk :=
            h.2.moved (fun y => by rw [setEnding_ratio, beginFade_feed]) (State.level_of_code (.inr ⟨l, rfl⟩))
          unfold failover
          split
          · split
            next a => exact ((h.crossfaded hs a).setEnding l .laneLost).raised _ _
            · exact (faded (some l.other)).raised _ _
          · exact faded none
        · exact h.2
      · split
        next e => exact h.fadedBack .laneLost
        · exact h.2
      next o hs =>
        split
        · exact h.2.setEnding x .laneLost
        next ne =>
          obtain rfl := Side.eq_other_of_ne (Ne.symm ne)
          exact h.abandons hs run .laneLost
      · exact h.2
  · exact h.2

theorem State.TracksOk.stopOnAir (handover : Bool) (run : (s.feed x).st = .running)
    (leads : (s.feed x).role = .leader ∨ (s.feed x).role = .outgoing) : (stopOnAir x handover s).2.RatiosOk := by
  unfold Machine.stopOnAir
  split
  next l hs =>
    obtain rfl := h.1.eq_leader (.inl hs) leads (Feed.isRead_of_running run)
    split
    next c =>
      simp only [Bool.and_eq_true] at c
      exact (h.crossfaded hs c.2).setEnding x .stopped
    · exact h.2.moved (fun y => by rw [setEnding_ratio, beginFade_feed]) (State.level_of_code (.inr ⟨x, rfl⟩))
  · exact h.fadedBack .stopped
  next o hs =>
    split
    · exact h.2.setEnding x .stopped
    next ne =>
      obtain rfl := Side.eq_other_of_ne (Ne.symm ne)
      exact h.abandons hs run .stopped
  · exact h.2

theorem State.TracksOk.repositioned (x : Side) : (s.setFeed x (s.feed x).repositioned).RatiosOk :=
  h.2.onFeed (Feed.ratioOk_nominal rfl) rfl

theorem State.TracksOk.transitionEnded (formed : 0 < s.sel.formed) : (endTransition s).RatiosOk := by
  have silent {t : State} (e : ∀ x, (t.feed x).ratio = (s.feed x).ratio) (hs : t.sel.state = .silent) : t.RatiosOk :=
    h.2.moved e (State.level_of_code (.inl hs))
  unfold endTransition
  split
  next l hs =>
    obtain ⟨-, -, -, -, -, -, mark, -⟩ := (programOk_running (.inr hs)).mp h.1
    rw [Selector.formed_of_not mark] at formed
    refine h.2.moved (fun y => by rw [State.feed_onSel]) (State.level_onair (l := l) rfl fun a => ?_)
    exact State.sameNominal_of_ratios (h.level.rise hs a formed) fun y => by rw [State.feed_onSel]
  next o hs =>
    obtain ⟨-, -, -, -, -, -, aligned, -⟩ := (programOk_xfade hs).mp h.1
    split
    · exact silent (fun y => by rw [enterSilent_feed, finishOutgoing_ratio, completeFeed_ratio]) rfl
    · refine h.2.moved (fun y => by rw [State.feed_onSel, finishOutgoing_ratio])
        (State.level_onair (l := o.other) rfl fun a => ?_)
      have flag : (finishOutgoing o s).sel.aligned = false := by
        unfold finishOutgoing
        split
        · simp [Selector.dropped, aligned]
        · split
          · simp [Selector.dropped, aligned]
          · rfl
        · exact aligned
      simp [Selector.rest, flag] at a
  next l hs =>
    split
    · exact silent (fun y => by rw [enterSilent_feed, completeFeed_ratio]) rfl
    next y hc =>
      have ended : (completeFeed l ((s.feed l).ending.getD .stopped) s).RatiosOk := h.ended l _
      have moved := ended.onFeed (x := y) (f := { ((completeFeed l ((s.feed l).ending.getD .stopped) s).feed y).repositioned
        with role := .leader }) (Feed.ratioOk_nominal rfl) rfl
      exact moved.moved (fun y => by rw [State.feed_onSel]; rfl) (State.level_rise (l := y) rfl nofun)
  · exact h.2

theorem State.TracksOk.caughtUp : (caughtUp s).RatiosOk := by
  unfold Machine.caughtUp
  split
  next c =>
    simp only [Selector.over, Bool.and_eq_true, decide_eq_true_eq] at c
    exact h.transitionEnded (Nat.lt_of_lt_of_le (Nat.two_pow_pos _) c.2)
  · exact h.2

theorem State.TracksOk.onairSteps (feed : Nat) : (onairSteps feed s).2.RatiosOk := by
  have risen {t : State} (ht : t.RatiosOk) (x : Side) :
      ((beginRise x t).onSel fun v => { v with aligned := false }).RatiosOk :=
    ht.moved (fun y => by rw [State.feed_onSel, beginRise_ratio]) (State.level_rise (l := x) rfl nofun)
  unfold Machine.onairSteps
  split
  · exact h.2
  · split
    · exact h.2
    · exact h.2
    · exact h.2
    next hs =>
      split
      · exact h.2
      · split
        next c =>
          simp only [Bool.and_eq_true] at c
          exact h.crossfaded hs c.2
        · exact h.2
    · split
      · split
        · exact risen h.2 _
        · exact risen (h.repositioned _) _
      · exact h.2

/-- The judgement aligns a standby of the leader's nominal ratio alone (R91). -/
theorem State.TracksOk.alignmentJudged : (judgeAlignment s).RatiosOk := by
  have still {t : State} (feeds : ∀ y, t.feed y = s.feed y) (state : t.sel.state = s.sel.state) (n : t.sel.n = s.sel.n)
      (formed : t.sel.formed = s.sel.formed) (aligned : t.sel.aligned = s.sel.aligned) : t.RatiosOk :=
    h.2.kept (fun y => by rw [feeds]) state n formed fun a => aligned ▸ a
  unfold judgeAlignment
  split
  next y hy =>
    split
    · exact still (fun y => by rw [State.feed_onSel]) rfl rfl rfl rfl
    · have feeds (z : Side) : ((setAligned y (s.judgesAligned y) s).feed z).ratio = (s.feed z).ratio := by
        simp [setAligned]
      have level {l : Side} (hl : s.sel.state.leader = some l) (standby : y = l.other)
          (a : s.judgesAligned y = true) : (setAligned y (s.judgesAligned y) s).SameNominal := by
        subst standby
        simp only [State.judgesAligned, hl, Bool.and_eq_true, beq_iff_eq] at a
        exact State.sameNominal_of_ratios (State.sameNominal_of_other a.1.1) feeds
      have stands := State.isStandby_of_standby hy
      refine h.2.moved feeds ⟨fun {l} hs a => ?_, fun {l} hs a _ => ?_, fun {l} hs c => ?_⟩
      · have before : s.sel.state = .onair l := hs
        obtain ⟨-, -, leads, -⟩ := (programOk_running (.inl before)).mp h.1
        exact level (by rw [before]; rfl) (standby_is_other leads stands) a
      · have before : s.sel.state = .rise l := hs
        obtain ⟨-, -, leads, -⟩ := (programOk_running (.inr before)).mp h.1
        exact level (by rw [before]; rfl) (standby_is_other leads stands) a
      · exact State.sameNominal_of_ratios (h.level.xfade hs c) feeds
  · exact still (fun y => by rw [State.feed_onSel]) rfl rfl rfl rfl

end Ops

theorem State.RatiosOk.standbyTaken {s : State} (h : s.RatiosOk) (x : Side) : (takeStandby x s).RatiosOk :=
  h.kept (takeStandby_ratio s x) rfl rfl rfl nofun

theorem State.RatiosOk.rises {s : State} (h : s.RatiosOk) (x : Side) : (beginRise x s).RatiosOk :=
  h.moved (beginRise_ratio s x) (State.level_rise (l := x) rfl fun _ c => absurd c (Nat.lt_irrefl 0))

theorem State.RatiosOk.primedTaken {s : State} (h : s.RatiosOk) : (takePrimed s).RatiosOk := by
  unfold takePrimed
  split
  · split
    · exact (h.rises _).standbyTaken _
    · exact h.rises _
    · exact h.rises _
    · exact h
  · split
    · exact h.standbyTaken _
    · exact h
  · split
    · exact h.standbyTaken _
    · exact h
  · exact h

/-- The servo keeps its ratio within the clamp range (R73, R74). -/
theorem Resampler.servo_ratio (v : Resampler) (fill target : Nat) :
    v.rNom - v.rNom / 512 ≤ (v.servo fill target).r ∧ (v.servo fill target).r ≤ v.rNom + v.rNom / 512 := by
  simp only [Resampler.servo]
  omega

theorem State.RatiosOk.servoed {s : State} (h : s.RatiosOk) : (servoStep s).RatiosOk := by
  unfold servoStep
  split
  · exact h
  next x _ =>
    dsimp only
    split
    next c =>
      obtain ⟨lo, hi⟩ := (s.feed x).rs.servo_ratio (s.feed x).fill (s.feed x).setup.target
      have stepped := h.onFeed (x := x)
        (f := { s.feed x with rs := (s.feed x).rs.servo (s.feed x).fill (s.feed x).setup.target })
        ⟨lo, hi, fun paced => absurd c.2 paced⟩ rfl
      exact stepped.kept (fun y => by rw [State.feed_raiseIf]) rfl rfl rfl id
    · exact h

theorem ratio_of_core {f g : Feed} (h : f.core = g.core) : f.ratio = g.ratio := by
  have k := congrArg Feed.ratio h
  exact k

theorem State.RatiosOk.ratioFeed {s : State} (h : s.RatiosOk) {x : Side} {f : Feed}
    (e : f.ratio = (s.feed x).ratio) : (s.setFeed x f).RatiosOk :=
  h.onFeed (((State.ratiosOk_iff.mp h).1 x).of_ratio e) (congrArg Prod.fst e)

theorem tracksOk_sees : SeesProgram State.TracksOk where
  blind ha hb hs h := ⟨programOk_sees.blind ha hb hs h.1,
    h.2.kept (fun x => by cases x <;> simp [ha, hb]) (by rw [hs]) (by rw [hs]) (by rw [hs]) (by rw [hs]; exact id)⟩
  units e h := ⟨programOk_sees.units e h.1, h.2.ratioFeed (ratio_of_core e)⟩
  awaiting l h := ⟨programOk_sees.awaiting l h.1, h.2.kept (fun x => by cases x <;> rfl) rfl rfl rfl id⟩
  caughtUp h := ⟨h.1.caughtUp, h.caughtUp⟩
  loss x h := ⟨h.1.loss x, h.loss x⟩
  stopOnAir handover run leads h := ⟨h.1.stopOnAir handover run leads, h.stopOnAir handover run leads⟩
  ended reason hx h := ⟨h.1.ended reason hx, h.ended _ reason⟩
  onairSteps feed h := ⟨h.1.onairSteps feed, h.onairSteps feed⟩
  underrun x h := ⟨programOk_sees.underrun x h.1, h.2.ratioFeed rfl⟩
  servo h := ⟨h.1.servoed, h.2.servoed⟩
  alignment h := ⟨h.1.alignmentJudged, h.alignmentJudged⟩
  primed h := ⟨h.1.primedTaken, h.2.primedTaken⟩

/-! ## The house sample event (R71, R91) -/

/-- Both invariants of the program, with no transition over. -/
abbrev State.TracksSettled (s : State) : Prop := s.ProgramSettled ∧ s.RatiosOk

theorem State.TracksSettled.tracks {s : State} (h : s.TracksSettled) : s.TracksOk := ⟨h.1.1, h.2⟩

theorem tracksSettled_sees : SeesProgram State.TracksSettled where
  blind ha hb hs h := ⟨programSettled_sees.blind ha hb hs h.1, (tracksOk_sees.blind ha hb hs h.tracks).2⟩
  units e h := ⟨programSettled_sees.units e h.1, (tracksOk_sees.units e h.tracks).2⟩
  awaiting l h := ⟨programSettled_sees.awaiting l h.1, (tracksOk_sees.awaiting l h.tracks).2⟩
  caughtUp h := ⟨programSettled_sees.caughtUp h.1, h.tracks.caughtUp⟩
  loss x h := ⟨programSettled_sees.loss x h.1, h.tracks.loss x⟩
  stopOnAir handover run leads h :=
    ⟨programSettled_sees.stopOnAir handover run leads h.1, h.tracks.stopOnAir handover run leads⟩
  ended reason hx h := ⟨programSettled_sees.ended reason hx h.1, h.tracks.ended _ reason⟩
  onairSteps feed h := ⟨programSettled_sees.onairSteps feed h.1, h.tracks.onairSteps feed⟩
  underrun x h := ⟨programSettled_sees.underrun x h.1, (tracksOk_sees.underrun x h.tracks).2⟩
  servo h := ⟨programSettled_sees.servo h.1, h.2.servoed⟩
  alignment h := ⟨programSettled_sees.alignment h.1, h.tracks.alignmentJudged⟩
  primed h := ⟨programSettled_sees.primed h.1, h.2.primedTaken⟩

/-- The incoming feed of a crossfade inherits a ratio of its own nominal ratio's clamp range (R71). -/
theorem State.RatiosOk.inherited {s : State} (h : s.RatiosOk) : (inheritRatio s).RatiosOk := by
  obtain ⟨ratios, level⟩ := State.ratiosOk_iff.mp h
  unfold inheritRatio
  split
  next x hs =>
    split
    next first =>
      have nominal := (level.xfade hs first).other x
      by_cases streaming : (s.feed x.other).setup.mode = .streaming
      · simp only [State.onFeed, streaming, if_true]
        refine h.onFeed ⟨?_, ?_, fun paced => absurd streaming paced⟩ rfl
        · show (s.feed x.other).rs.rNom - (s.feed x.other).rs.rNom / 512 ≤ (s.feed x).rs.r
          exact nominal ▸ (ratios x).1
        · show (s.feed x).rs.r ≤ (s.feed x.other).rs.rNom + (s.feed x.other).rs.rNom / 512
          exact nominal ▸ (ratios x).2.1
      · simp only [State.onFeed, streaming, if_false]
        exact h.onFeed (Feed.ratioOk_nominal rfl) rfl
    · exact h
  · exact h

/-- At a rise's first house sample no flag is aligned (R91). -/
def State.Unflagged (s : State) : Prop := ∀ l, s.sel.state = .rise l → s.sel.n = 0 → s.sel.aligned = false

theorem State.TracksOk.riseUnaligned {s : State} (h : s.TracksOk) :
    (riseUnaligns s).RatiosOk ∧ (riseUnaligns s).Unflagged := by
  unfold riseUnaligns
  split
  next l hs =>
    split
    · exact ⟨h.2.kept (fun y => by simp [setAligned]) rfl rfl rfl nofun, fun _ _ _ => rfl⟩
    next c =>
      refine ⟨h.2, fun k hk first => ?_⟩
      obtain rfl : l = k := by simpa [hs] using hk
      obtain ⟨-, -, -, -, aligned, -⟩ := (programOk_running (.inr hs)).mp h.1
      rw [← Bool.not_eq_true]
      exact fun a => c ⟨first, aligned a⟩
  next apart => exact ⟨h.2, fun l hl => absurd hl (apart l)⟩

theorem noteUnderrun_ratio (s : State) (y : Side) : ((noteUnderrun s).feed y).ratio = (s.feed y).ratio := by
  unfold noteUnderrun
  split
  · rfl
  next x _ =>
    split
    · rfl
    · split
      · rw [State.feed_raise, State.feed_onFeed]
        split
        next e => rw [e]; rfl
        · rfl
      · rfl

@[simp] theorem noteUnderrun_sel (s : State) : (noteUnderrun s).sel = s.sel := by
  unfold noteUnderrun
  split
  · rfl
  · split
    · rfl
    · split <;> rfl

theorem Feed.follow_ratio (f : Feed) (pos phase : Nat) : (f.follow pos phase).ratio = f.ratio := by
  unfold Feed.follow
  split <;> rfl

@[simp] theorem Resampler.advanced_rNom (v : Resampler) : v.advanced.rNom = v.rNom := by
  unfold Resampler.advanced
  split
  · rfl
  · split <;> rfl

@[simp] theorem Resampler.advanced_r (v : Resampler) : v.advanced.r = v.r := by
  unfold Resampler.advanced
  split
  · rfl
  · split <;> rfl

theorem State.RatiosOk.advanced {s : State} (h : s.RatiosOk) : (advancePositions s).RatiosOk := by
  cases hl : s.sel.state.leader with
  | none =>
    have hs : s.sel.state = .silent := by
      cases e : s.sel.state with
      | silent => rfl
      | _ => simp [e, SelState.leader] at hl
    obtain ⟨feeds, sel⟩ := advancePositions_silent hs
    exact h.kept (fun y => by rw [feeds, Feed.follow_ratio]) (by rw [sel]) (by rw [sel]) (by rw [sel])
      (by rw [sel]; exact id)
  | some l =>
    obtain ⟨lead, beside, sel⟩ := advancePositions_leader hl
    refine h.kept ((Side.forall_iff l).mpr ⟨?_, ?_⟩) (by rw [sel]) (by rw [sel]) (by rw [sel]; rfl) (by rw [sel]; exact id)
    · rw [lead]
      simp [Feed.ratio]
    · rw [beside, Feed.follow_ratio]

theorem State.RatiosOk.failsMarked {s : State} (h : s.RatiosOk ∧ s.Unflagged) (fails : List RingFail) :
    (markFails fails s).RatiosOk ∧ (markFails fails s).Unflagged := by
  unfold markFails
  refine foldl_keeps (P := fun u => u.RatiosOk ∧ u.Unflagged) (fun u e hu => ?_) fails h
  refine ⟨hu.1.kept (fun y => ?_) rfl rfl rfl id, hu.2⟩
  simp only [markFail, damageSlot, State.feed_raise, State.feed_onFeed]
  split
  next e => rw [e]; rfl
  · rfl

theorem State.RatiosOk.counted {s : State} (h : s.RatiosOk ∧ s.Unflagged) :
    (s.onSel fun v => v.counted.hears).RatiosOk := by
  obtain ⟨ok, unflagged⟩ := h
  obtain ⟨-, level⟩ := State.ratiosOk_iff.mp ok
  have feeds (y : Side) : ((s.onSel fun v => v.counted.hears).feed y).ratio = (s.feed y).ratio := by
    rw [State.feed_onSel]
  have state : s.sel.counted.hears.state = s.sel.state := by
    unfold Selector.counted
    split
    · split <;> rfl
    · rfl
  have aligned : s.sel.counted.hears.aligned = s.sel.aligned := by
    unfold Selector.counted
    split
    · split <;> rfl
    · rfl
  have going {l : Side} (hs : s.sel.state = .xfade l) : s.sel.counted.hears.formed ≠ 0 := by
    unfold Selector.counted
    rw [if_pos (by rw [hs]; rfl)]
    split
    next c => simp [Selector.hears, Selector.formed, c]
    next c => simp [Selector.hears, Selector.formed, c]
  refine ok.moved feeds ⟨fun {l} hs a => ?_, fun {l} hs a _ => ?_, fun {l} hs c => ?_⟩
  · exact State.sameNominal_of_ratios (level.onair (state ▸ hs) (aligned ▸ a)) feeds
  · have before : s.sel.state = .rise l := state ▸ hs
    have flag : s.sel.aligned = true := aligned ▸ a
    have begun : 0 < s.sel.n := Nat.pos_of_ne_zero fun zero => by simp [unflagged l before zero] at flag
    exact State.sameNominal_of_ratios (level.rise before flag begun) feeds
  · have before : s.sel.state = .xfade l := state ▸ hs
    exact absurd c (going before)

theorem State.TracksOk.endsTaken {s : State} (h : s.TracksOk) : (takeEnds s).RatiosOk := by
  have ended {t : State} (ht : t.TracksOk) (x : Side) : (standbyEnds x t).TracksOk := by
    refine ⟨ht.1.standbyEnded x, ?_⟩
    unfold standbyEnds
    split
    · exact ht.ended x _
    · exact ht.2
  unfold takeEnds
  split
  · exact (ended (ended h .a) .b).2
  · split
    · refine h.2.moved (fun y => ?_) (State.level_of_code (.inl rfl))
      rw [leaderEnds, enterSilent_feed]
      have with_ (t : State) (x : Side) (reason : Reason) : ((completeWith x reason t).feed y).ratio = (t.feed y).ratio := by
        unfold completeWith
        split
        · exact completeFeed_ratio ..
        · exact completeFeed_ratio ..
        · rfl
      rw [with_, completeFeed_ratio]
    · exact (ended h _).2

theorem tracksOk_samples : KeptBySamples State.TracksOk State.TracksSettled where
  events := tracksOk_sees.events
  settled := tracksSettled_sees.events
  weaken h := h.tracks
  caughtUp h := ⟨⟨h.1.caughtUp, caughtUp_over _⟩, h.caughtUp⟩
  inherit h := ⟨h.1.inherit, h.2.inherited⟩
  program {s} va vb h := by
    have noted : (noteUnderrun s).TracksSettled :=
      ⟨State.ProgramOk.underrunNoted h.1,
        h.2.kept (noteUnderrun_ratio s) (by simp) (by simp) (by simp) (by rw [noteUnderrun_sel]; exact id)⟩
    have advanced : (advancePositions (noteUnderrun s)).TracksOk := ⟨noted.1.advanced.1.1, noted.2.advanced⟩
    have ratios := State.RatiosOk.counted (State.RatiosOk.failsMarked advanced.riseUnaligned ((va ++ vb).flatMap Prod.snd))
    have program := (noted.1.advanced.riseUnaligned.failsMarked ((va ++ vb).flatMap Prod.snd)).counted
    exact ⟨program.endsTaken, State.TracksOk.endsTaken ⟨program, ratios⟩⟩

/-! ## Commands (R67, R71) -/

/-- A feed that is not read takes any ratio within its range: no lead is handed over to it (R87). -/
theorem State.TracksOk.replaced {s : State} (h : s.TracksOk) {x : Side} {f : Feed} (still : (s.feed x).isRead = false)
    (hf : f.RatioOk) : (s.setFeed x f).RatiosOk := by
  obtain ⟨ratios, -⟩ := State.ratiosOk_iff.mp h.2
  have role : (s.feed x).role = .none := by
    obtain ⟨-, -, -, roles, -⟩ := h.1.records x
    exact roles still
  have unflagged (c : (s.feed x).isStandby = true) : False := by simpa [still] using Feed.isRead_of_isStandby c
  refine State.ratiosOk_iff.mpr ⟨fun y => ?_, ⟨fun {l} hs a => ?_, fun {l} hs a => ?_, fun {l} hs => ?_⟩⟩
  · rw [State.feed_setFeed]
    split
    · exact hf
    · exact ratios y
  · obtain rfl := h.1.ne_leader (x := x) (.inl hs) (by simp [role])
    have before : s.sel.state = .onair l := hs
    exact (unflagged (((programOk_running (.inl before)).mp h.1).2.2.2.2.1 a)).elim
  · obtain rfl := h.1.ne_leader (x := x) (.inr (.inl hs)) (by simp [role])
    have before : s.sel.state = .rise l := hs
    exact (unflagged (((programOk_running (.inr before)).mp h.1).2.2.2.2.1 a)).elim
  · exact absurd hs (h.1.no_xfade (x := x) (by simp [role]) l)

theorem Feed.RatioOk.fallBack (f : Feed) (house : Rate) (pages : Nat) : (f.fallBack house pages).feed.RatioOk :=
  Feed.ratioOk_nominal rfl

theorem Feed.RatioOk.reclassed (f : Feed) (house : Rate) (pages : Nat) : (f.reclassed house pages).feed.RatioOk := by
  unfold Feed.reclassed
  split
  · exact Feed.ratioOk_nominal rfl
  · exact .fallBack f house pages

theorem Feed.RatioOk.repartitioned {f : Feed} (h : f.RatioOk) (house : Rate) (pages : Nat) :
    (f.repartitioned house pages).feed.RatioOk := by
  unfold Feed.repartitioned
  split
  · exact h
  · exact .fallBack f house pages

/-- A SILENT selector hands no lead over. -/
theorem State.ratiosOk_silent {s : State} (hs : s.sel.state = .silent) (a : s.feedA.RatioOk) (b : s.feedB.RatioOk) :
    s.RatiosOk := by
  refine State.ratiosOk_iff.mpr ⟨fun x => ?_, State.level_of_code (.inl hs)⟩
  cases x
  · exact a
  · exact b

theorem Feed.openGap_ratio (f : Feed) (t : Nat) : (f.openGap t).ratio = f.ratio := by
  have same := congrArg Feed.ratio (f.openGap_kept t).1
  exact same

@[simp] theorem Feed.setLast_ratio (f : Feed) (l : Lane) (v : Option Nat) : (f.setLast l v).ratio = f.ratio := by
  cases l <;> rfl

/-- Same ratios under the same selector. -/
theorem State.RatiosOk.of_ratios {s t : State} (h : s.RatiosOk) (feeds : ∀ x, (t.feed x).ratio = (s.feed x).ratio)
    (sel : t.sel = s.sel) : t.RatiosOk :=
  h.kept feeds (by rw [sel]) (by rw [sel]) (by rw [sel]) (by rw [sel]; exact id)

/-- A placement touches no ratio. -/
theorem State.RatiosOk.placed {s : State} (h : s.RatiosOk) (x : Side) (l : Lane) (t : Nat) (valid ended : Bool)
    (samples : List Byte) : (Machine.placed x l t valid ended samples s).RatiosOk := by
  have written : (if valid then s.withSamples x l t samples else s).RatiosOk := by
    split
    · exact h.of_ratios (fun y => by cases y <;> rfl) rfl
    · exact h
  have slotted (u : State) (hu : u.RatiosOk) : (placeSlot x l t valid u).RatiosOk := by
    unfold placeSlot
    dsimp only
    split
    · have kept := hu.ratioFeed (x := x) (f := { ((u.feed x).openGap t).setSlot t (newSlot (u.feed x).setup l t valid) with
        h := t + 32 }) ((u.feed x).openGap_ratio t)
      exact kept.of_ratios (fun y => by simp only [State.feed_raiseIf]) rfl
    · have kept := hu.ratioFeed (x := x) (f := (u.feed x).setSlot t (((u.feed x).slotAt t).joined l valid)) rfl
      exact kept.of_ratios (fun y => by simp only [State.feed_raiseIf]) rfl
  have skewed (u : State) (hu : u.RatiosOk) : (skewCheck x l t u).RatiosOk := by
    unfold skewCheck
    split
    · refine foldl_keeps (P := State.RatiosOk) (fun v e hv => ?_) _ hu
      have kept := hv.ratioFeed (x := x)
        (f := (v.feed x).setSlot e { (v.feed x).slotAt e with state := .damaged }) rfl
      exact kept.of_ratios (fun y => by rw [State.feed_raise]; rfl) rfl
    · exact hu
  have settled (u : State) (hu : u.RatiosOk) : (u.onFeed x fun f =>
      let f1 := if valid && ended then f.markEnd t else f
      let f2 := if valid && !(s.feed x).intakeEnded then f1.goodBlock l else f1
      f2.primes.paceSettled (s.feed x).fill s.starting).RatiosOk := by
    refine hu.ratioFeed ?_
    show Feed.ratio (if valid && !(s.feed x).intakeEnded then (if valid && ended then (u.feed x).markEnd t else u.feed x).goodBlock l
        else if valid && ended then (u.feed x).markEnd t else u.feed x) = _
    split <;> split <;> rfl
  exact settled _ (skewed _ ((slotted _ written).ratioFeed (Feed.setLast_ratio ..)))

theorem State.RatiosOk.judged {s : State} (h : s.RatiosOk) (x : Side) (l : Lane) (v : LaneHeader)
    (body : List Byte) : (judgeBlock x l v body s).RatiosOk := by
  unfold judgeBlock
  dsimp only
  split
  · exact h
  · split
    · split
      · split
        · exact h
        · exact h.of_ratios (fun y => by rw [State.feed_raise]) rfl
        · split
          · exact h.placed x l _ _ _ _
          · exact h
      · exact h
    · split
      · exact h.placed x l _ _ _ _
      · exact h

/-- Both feeds replaced, each by one that is not read. -/
theorem State.TracksOk.replacedBoth {s : State} (h : s.TracksOk) {a b : Feed} (stillA : s.feedA.isRead = false)
    (stillB : s.feedB.isRead = false) (ha : a.isRead = false) (recordsA : a.RecordsOk) (ratioA : a.RatioOk)
    (ratioB : b.RatioOk) : ((s.setFeed .a a).setFeed .b b).RatiosOk :=
  State.TracksOk.replaced (x := .b) ⟨h.1.replaced (x := .a) stillA ha recordsA, h.replaced (x := .a) stillA ratioA⟩
    stillB ratioB

/-- An acknowledged feed keeps its ratio, or takes its pending PLAY at its nominal one (R62, R71). -/
theorem Feed.RatioOk.acknowledged {f : Feed} (h : f.RatioOk) : f.acknowledged.RatioOk := by
  unfold Feed.acknowledged
  split
  · exact Feed.ratioOk_nominal rfl
  · exact h

theorem tracksOk_commands : KeptByCommands State.TracksOk where
  toKeptByEvents := tracksOk_sees.events
  judgeBlock x l v body h := ⟨h.1.judged x l v body, h.2.judged x l v body⟩
  feedset rest check h := ⟨programOk_commands.feedset rest check h.1,
    h.replaced (Feed.not_read_of_rest rest) (Feed.ratioOk_nominal rfl)⟩
  takePlay {s x v} bound idle h := ⟨programOk_commands.takePlay bound idle h.1,
    h.replaced (by rw [Feed.isRead, idle]) (Feed.ratioOk_nominal rfl)⟩
  holdPlay bound complete h := ⟨programOk_commands.holdPlay bound complete h.1, h.2.ratioFeed rfl⟩
  dropPlay complete h := ⟨programOk_commands.dropPlay complete h.1, h.2.ratioFeed rfl⟩
  acknowledged {s x} complete h := ⟨programOk_commands.acknowledged complete h.1,
    h.replaced (by rw [Feed.isRead, complete]) ((State.ratiosOk_iff.mp h.2).1 x).acknowledged⟩
  policy least most h := ⟨programOk_commands.policy least most h.1,
    h.2.kept (fun y => by rw [State.feed_onSel]) rfl rfl rfl id⟩
  clockset {s source house n} least most free h := by
    refine ⟨programOk_commands.clockset least most free h.1, ?_⟩
    obtain rfl | free := free
    · exact h.2.of_ratios (fun y => by cases y <;> simp [State.clockFeed]) rfl
    · simp only [State.classFree, Bool.and_eq_true, Feed.atRest, Bool.not_eq_true'] at free
      obtain ⟨⟨-, restA⟩, restB⟩ := free
      have changed (x : Side) : (s.clockFeed x house).feed.RatioOk := by
        unfold State.clockFeed
        split
        · exact (State.ratiosOk_iff.mp h.2).1 x
        · exact .reclassed _ house _
      have records : (s.clockFeed .a house).feed.isRead = false ∧ (s.clockFeed .a house).feed.RecordsOk := by
        unfold State.clockFeed
        split
        · exact ⟨Feed.not_read_of_rest restA, h.1.records .a⟩
        · exact (h.1.records .a).reclassed restA house _
      have both := h.replacedBoth (Feed.not_read_of_rest restA) (Feed.not_read_of_rest restB) records.1 records.2
        (changed .a) (changed .b)
      exact both.of_ratios (fun y => by cases y <;> rfl) rfl
  partition {s} a b restA restB h := by
    obtain ⟨ratios, -⟩ := State.ratiosOk_iff.mp h.2
    obtain ⟨stillA, recordsA⟩ := Feed.RecordsOk.repartitioned (h.1.records .a) restA s.clock.rateClass a
    exact ⟨programOk_commands.partition a b restA restB h.1,
      h.replacedBoth (Feed.not_read_of_rest restA) (Feed.not_read_of_rest restB) stillA recordsA
        ((ratios .a).repartitioned s.clock.rateClass a) ((ratios .b).repartitioned s.clock.rateClass b)⟩
  flushed h := ⟨programOk_commands.flushed h.1,
    State.ratiosOk_silent rfl (Feed.ratioOk_nominal rfl) (Feed.ratioOk_nominal rfl)⟩
  fetched r h := ⟨programOk_commands.fetched r h.1, h.2.of_ratios (fun y => by cases y <;> rfl) rfl⟩
  routed map h := ⟨programOk_commands.routed map h.1, h.2.of_ratios (fun y => by cases y <;> rfl) rfl⟩
  powerOn strap h := ⟨programOk_commands.powerOn strap h.1,
    State.ratiosOk_silent rfl (Feed.ratioOk_nominal rfl) (Feed.ratioOk_nominal rfl)⟩
  resetAssert h := ⟨programOk_commands.resetAssert h.1,
    State.ratiosOk_silent rfl (Feed.ratioOk_nominal rfl) (Feed.ratioOk_nominal rfl)⟩

/-- Settles O60: a ratio moves only within its clamp range, and a lead is handed over only between feeds of equal
nominal ratios, since the standby's flag vouches for them. -/
theorem stepKeepsRatios : Obligations.StepKeepsRatios := fun _ _ program ratios e =>
  (step_keeps tracksOk_commands tracksOk_samples
    (fun _ h => ⟨h.1.of_cast (fun x => by cases x <;> rfl) rfl, h.2.of_ratios (fun x => by cases x <;> rfl) rfl⟩)
    ⟨program, ratios⟩ e).2

end Sys2Proof.Machine
end

section
/-!
O1, O3, O52, O53: the front of the queue, power-on, the store, and the invariants of the reset state.
-/

namespace Sys2Proof.Machine

open Sys2Proof

/-! ## O1 -/

/-- Settles O1: a step looks at the front of the queue. -/
theorem stepRunsFront : Obligations.StepRunsFront := by
  intro c rest s front
  rw [step, front]

/-! ## O3 -/

/-- A feed after a reset has its chapters' values (R35, R64, R86). -/
theorem feedReset_cleared (house : Rate) : (feedReset house).Cleared house := by
  refine ⟨⟨rfl, ?_, rfl, rfl, rfl, rfl, rfl, rfl, rfl⟩, ⟨rfl, rfl, rfl, rfl, rfl, rfl, rfl, rfl⟩,
    ⟨rfl, rfl, rfl, rfl, rfl, rfl, rfl⟩, ?_⟩
  · rfl
  · cases house <;> decide

/-- The control bus interface and the notice unit after a reset (R179, R187). -/
theorem front_cleared {s : State} {strap : Bool} (bus : s.bus = busReset strap) (notices : s.notices = noticesReset) :
    s.FrontCleared := by
  unfold State.FrontCleared
  rw [bus, notices]
  exact ⟨fun r => by cases r <;> exact ⟨rfl, rfl, rfl, rfl⟩, rfl, rfl, rfl, rfl⟩

/-- Every output after a reset (R47, R151). -/
theorem outputs_cleared {s : State} (outs : s.outs = List.replicate 64 outReset) (groups : s.groups = 0)
    (call : s.gcMute = false) (last : s.muteLast = false) (accepted : s.muteAccepted = false) : s.OutputsCleared := by
  refine ⟨by rw [outs, List.length_replicate], fun o ho => ?_, groups, call, last, accepted⟩
  obtain rfl := List.eq_of_mem_replicate (outs ▸ ho)
  exact ⟨rfl, rfl, rfl, rfl, rfl, rfl, rfl, rfl, rfl, rfl, rfl⟩

/-- Settles O3. -/
theorem powerOn_clears : Obligations.PowerOn := by
  intro s strap
  refine ⟨Machine.powerOn strap s, rfl, ⟨feedReset_cleared .k48, feedReset_cleared .k48, ?_, ?_, ?_, rfl, ?_, rfl, rfl,
    rfl, rfl⟩, rfl, rfl, rfl, rfl, rfl, rfl, rfl, rfl, rfl, rfl, rfl, rfl, rfl, rfl⟩
  · exact ⟨rfl, rfl, rfl, rfl, rfl, rfl, rfl, rfl, rfl, rfl, rfl, rfl⟩
  · exact ⟨rfl, rfl, rfl, rfl, rfl, rfl⟩
  · exact outputs_cleared rfl rfl rfl rfl rfl
  · exact front_cleared (strap := strap) rfl rfl

/-! ## O52 -/

/-- A word that is not the default is put at its place, whatever the list's order. -/
theorem Memory.read_put_of_ne {m : Memory} {w : MemWord} (other : w ≠ defaultWord) (a b : Nat) :
    (m.put a w).read b = if b = a then w else m.read b := by
  induction m with
  | nil => simp [Memory.put, other, Memory.read, eq_comm]
  | cons c rest ih =>
    obtain ⟨k, v⟩ := c
    simp only [Memory.put, other, if_false]
    split
    · simp [Memory.read, eq_comm]
    · split
      next e =>
        subst e
        simp only [Memory.read]
        grind
      next ne =>
        simp only [Memory.read, ih]
        grind

/-- Two lists in canonical form that read alike are equal. -/
theorem Memory.eq_of_read {m q : Memory} (hm : Memory.wf m = true) (hq : Memory.wf q = true)
    (same : ∀ a, m.read a = q.read a) : m = q := by
  rw [Memory.wf_iff] at hm hq
  induction m generalizing q with
  | nil =>
    cases q with
    | nil => rfl
    | cons d rest =>
      have listed : Memory.read (d :: rest) d.1 = d.2 := by simp [Memory.read]
      exact absurd (listed.symm.trans (same d.1).symm) (hq.2 d List.mem_cons_self)
  | cons c l ih =>
    have headRead (d : Nat × MemWord) (r : Memory) : Memory.read (d :: r) d.1 = d.2 := by simp [Memory.read]
    obtain ⟨order, values⟩ := hm
    obtain ⟨before, order⟩ := List.pairwise_cons.mp order
    cases q with
    | nil => exact absurd ((headRead c l).symm.trans (same c.1)) (values c List.mem_cons_self)
    | cons d r =>
      obtain ⟨orderQ, valuesQ⟩ := hq
      obtain ⟨beforeQ, orderQ⟩ := List.pairwise_cons.mp orderQ
      have first : c.1 = d.1 := by
        rcases Nat.lt_trichotomy c.1 d.1 with below | e | below
        · have none := Memory.read_below (m := d :: r) (a := c.1) (by
            rintro x (_ | ⟨_, hx⟩)
            · exact below
            · exact below.trans (beforeQ x hx))
          exact absurd ((headRead c l).symm.trans ((same c.1).trans none)) (values c List.mem_cons_self)
        · exact e
        · have none := Memory.read_below (m := c :: l) (a := d.1) (by
            rintro x (_ | ⟨_, hx⟩)
            · exact below
            · exact below.trans (before x hx))
          exact absurd ((headRead d r).symm.trans ((same d.1).symm.trans none)) (valuesQ d List.mem_cons_self)
      have word : c.2 = d.2 := by
        have e := same c.1
        rwa [headRead, first, headRead] at e
      have rests (a : Nat) : Memory.read l a = Memory.read r a := by
        by_cases here : c.1 = a
        · rw [Memory.read_below fun x hx => here ▸ before x hx, Memory.read_below fun x hx => here ▸ first ▸ beforeQ x hx]
        · have e := same a
          obtain ⟨ca, cw⟩ := c
          obtain ⟨da, dw⟩ := d
          obtain rfl : ca = da := first
          simpa [Memory.read, here] using e
      rw [ih ⟨order, fun x hx => values x (List.mem_cons_of_mem _ hx)⟩
        ⟨orderQ, fun x hx => valuesQ x (List.mem_cons_of_mem _ hx)⟩ rests, Prod.ext first word]

/-- Settles O52. -/
theorem sampleMemory : Obligations.SampleMemory := by
  refine ⟨fun s a => ⟨fun beyond => ?_, fun within => ⟨s.mem.spoil a, ?_, ?_, fun b ne => ?_⟩⟩,
    fun m a b w ok => Memory.read_put a b w ok, fun m a w ok => Memory.put_wf a w ok, fun m page a => Memory.read_scrub m page a,
    fun m q hm hq same => Memory.eq_of_read hm hq same⟩
  · have beyond : ¬ a < Config.memWords := Nat.not_lt.mpr beyond
    exact if_neg beyond
  · have within : a < Config.memWords := within
    exact if_pos within
  · rw [Memory.spoil, Memory.read_put_of_ne (by simp [defaultWord]), if_pos rfl]
  · rw [Memory.spoil, Memory.read_put_of_ne (by simp [defaultWord]), if_neg ne]

/-! ## O53 -/

/-- Settles O53: each block's power-on values meet its invariant. -/
theorem resetMeetsInvariants : Obligations.ResetMeetsInvariants := by
  have scene : State.reset.SceneOk := sceneReset_ok rfl
  refine ⟨rfl, gainsOk_reset, ⟨Nat.zero_le _, .nil⟩, State.noticesOk_iff.mpr noticesReset_ok, scene.1, scene.2,
    clockPowerOn_ok, State.ringsOk_of_feeds (feedReset_placeable _) (feedReset_placeable _), ?_, ?_⟩
  · exact State.programOk_idle rfl (selectorPowerOn_plain _ ⟨rfl, rfl, rfl, rfl, rfl, rfl, rfl⟩) rfl
      (feedReset_records _) (feedReset_records _)
  · exact State.ratiosOk_silent rfl (Feed.ratioOk_nominal rfl) (Feed.ratioOk_nominal rfl)

end Sys2Proof.Machine
end

section
/-!
O2, O9: what a house sample's work leaves unchanged, the events of the house clock, and what falls due with them.
-/

namespace Sys2Proof.Machine

open Sys2Proof

/-! ## What the work of a house sample leaves -/

/-- A feed without what the program's operations change: what intake alone moves. -/
def Feed.intake (f : Feed) : Feed :=
  { f with
    ring := [], pace := paceIdle, st := .idle, role := .none, ending := none, completion := none, rs := resamplerReset 0 }

/-- The state without what the work of a house sample changes. -/
def State.still (s : State) : State :=
  { s with
    mem := [], feedA := s.feedA.intake, feedB := s.feedB.intake
    sel := { selectorPowerOn with awaiting := s.sel.awaiting }, scene := { s.scene with active := [] }, outs := []
    slots := [], notices := { noticesReset with routing := s.notices.routing } }

theorem State.setFeed_still {s : State} {x : Side} {f : Feed} (h : f.intake = (s.feed x).intake) :
    (s.setFeed x f).still = s.still := by
  cases x
  · show { s.still with feedA := f.intake } = { s.still with feedA := s.feedA.intake }
    rw [h]
    rfl
  · show { s.still with feedB := f.intake } = { s.still with feedB := s.feedB.intake }
    rw [h]
    rfl

theorem State.onFeed_still {s : State} {x : Side} {g : Feed → Feed} (h : ∀ f, (g f).intake = f.intake) :
    (s.onFeed x g).still = s.still := State.setFeed_still (h _)

theorem State.onSel_still {s : State} {g : Selector → Selector} (h : (g s.sel).awaiting = s.sel.awaiting) :
    (s.onSel g).still = s.still := by
  show { s.still with sel := { selectorPowerOn with awaiting := (g s.sel).awaiting } } = s.still
  rw [h]
  rfl

@[simp] theorem raise_routing (k : Kind) (d : List Byte) (s : State) :
    (raise k d s).notices.routing = s.notices.routing := by
  show (if s.resetLine then s.notices else s.notices.route k d s.houseTime).routing = _
  split
  · rfl
  · exact Notices.route_routing ..

@[simp] theorem raise_still (k : Kind) (d : List Byte) (s : State) : (raise k d s).still = s.still := by
  show { s.still with notices := { noticesReset with routing := (raise k d s).notices.routing } } = s.still
  rw [raise_routing]
  rfl

@[simp] theorem raiseIf_still (c : Bool) (k : Kind) (d : List Byte) (s : State) : (raiseIf c k d s).still = s.still := by
  rw [raiseIf_eq]
  split <;> simp

theorem foldl_still {α : Type} {f : State → α → State} (h : ∀ s a, (f s a).still = s.still) (l : List α) (s : State) :
    (l.foldl f s).still = s.still :=
  foldl_keeps (P := fun u => u.still = s.still) (fun u a hu => (h u a).trans hu) l rfl

@[simp] theorem completeFeed_still (x : Side) (reason : Reason) (s : State) :
    (completeFeed x reason s).still = s.still := by
  have same : (s.setFeed x ((s.feed x).completed reason)).still = s.still := State.setFeed_still rfl
  rw [completeFeed, raise_still]
  exact (State.onSel_still (by rfl)).trans same

@[simp] theorem enterSilent_still (heard : Option Side) (cause : SilenceCause) (s : State) :
    (enterSilent heard cause s).still = s.still := by
  rw [enterSilent, raise_still]
  exact State.onSel_still (by rfl)

@[simp] theorem setAligned_still (y : Side) (v : Bool) (s : State) : (setAligned y v s).still = s.still := by
  rw [setAligned, raiseIf_still]
  exact State.onSel_still (by rfl)

@[simp] theorem noteUnderrun_still (s : State) : (noteUnderrun s).still = s.still := by
  unfold noteUnderrun
  split
  · rfl
  · split
    · rfl
    · split
      · rw [raise_still]
        exact State.onFeed_still fun _ => rfl
      · rfl

@[simp] theorem inheritRatio_still (s : State) : (inheritRatio s).still = s.still := by
  unfold inheritRatio
  split
  · split
    · exact State.onFeed_still fun _ => rfl
    · rfl
  · rfl

@[simp] theorem advancePositions_still (s : State) : (advancePositions s).still = s.still := by
  have follows (u : State) (x : Side) (pos phase : Nat) : (u.onFeed x fun f => f.follow pos phase).still = u.still :=
    State.onFeed_still fun _ => rfl
  unfold advancePositions
  split
  · rw [follows, follows]
  next x _ =>
    refine (State.onSel_still (by rfl)).trans ?_
    rw [follows]
    exact State.onFeed_still fun _ => rfl

@[simp] theorem riseUnaligns_still (s : State) : (riseUnaligns s).still = s.still := by
  unfold riseUnaligns
  split
  · split
    · simp
    · rfl
  · rfl

@[simp] theorem markFails_still (fails : List RingFail) (s : State) : (markFails fails s).still = s.still :=
  foldl_still (f := fun s e => markFail e s) (fun u e => by
    rw [markFail, raise_still]
    exact State.onFeed_still fun _ => rfl) fails s

@[simp] theorem takeEnds_still (s : State) : (takeEnds s).still = s.still := by
  have standby (x : Side) (u : State) : (standbyEnds x u).still = u.still := by
    unfold standbyEnds
    split <;> simp
  unfold takeEnds
  split
  · rw [standby, standby]
  · split
    · unfold leaderEnds completeWith
      dsimp only
      split <;> simp
    · exact standby ..

@[simp] theorem Selector.counted_awaiting (v : Selector) : v.counted.awaiting = v.awaiting := by
  unfold Selector.counted
  split
  · split <;> rfl
  · rfl

theorem programStep_still (va vb : List ReadResult) (s : State) : (programStep va vb s).still = s.still := by
  rw [programStep, takeEnds_still, State.onSel_still (by simp [Selector.hears]), markFails_still, riseUnaligns_still,
    advancePositions_still, noteUnderrun_still]

theorem outputStage_still (passing : List Access) (inputs : List Int) (s : State) :
    (outputStage passing inputs s).still = s.still := by
  have clip (sats : List Saturation) (u : State) : (raiseClip sats u).still = u.still := by
    unfold raiseClip
    split
    · rfl
    · exact raise_still ..
  have faults (failed : List (Nat × Nat)) (u : State) : (raiseLineFaults failed u).still = u.still :=
    foldl_still (fun _ _ => raise_still ..) failed u
  unfold outputStage
  dsimp only
  rw [clip, faults]
  rfl

@[simp] theorem Feed.paceSample_intake (f : Feed) (starting : Bool) : (f.paceSample starting).intake = f.intake := by
  unfold Feed.paceSample
  split
  · rfl
  · split
    · rfl
    · split
      · rfl
      · split <;> rfl
    · split
      · rfl
      · split
        · rfl
        · split
          · rfl
          · split <;> rfl

/-- A house sample's work, in either phase, leaves all but what `State.still` blanks (R8, R12). -/
theorem sampleWork_still (reads : SampleReads) (s : State) : (sampleWork reads s).still = s.still := by
  have paced (x : Side) (u : State) : (u.onFeed x fun f => f.paceSample false).still = u.still :=
    State.onFeed_still fun f => f.paceSample_intake false
  unfold sampleWork
  split
  · rfl
  · have ramped (u : State) : (rampStep u).still = u.still := rfl
    unfold runningSample
    dsimp only
    rw [outputStage_still, ramped, programStep_still, inheritRatio_still, paced, paced]

/-! ## The parts of the state at a house sample -/

theorem State.clock_of_still {s t : State} (h : t.still = s.still) : t.clock = s.clock := by
  have k := congrArg State.clock h
  exact k

theorem State.intakes_of_still {s t : State} (h : t.still = s.still) (x : Side) :
    (t.feed x).intake = (s.feed x).intake := by
  cases x
  · have k := congrArg State.feedA h
    exact k
  · have k := congrArg State.feedB h
    exact k

theorem State.awaiting_of_still {s t : State} (h : t.still = s.still) : t.sel.awaiting = s.sel.awaiting := by
  have k := congrArg (fun u => u.sel.awaiting) h
  exact k

theorem State.routing_of_still {s t : State} (h : t.still = s.still) : t.notices.routing = s.notices.routing := by
  have k := congrArg (fun u => u.notices.routing) h
  exact k

theorem State.scene_of_still {s t : State} (h : t.still = s.still) :
    { t.scene with active := [] } = { s.scene with active := [] } := by
  have k := congrArg State.scene h
  exact k

/-- The state after a house sample's work, before the block event falls (R8). -/
def State.worked (s : State) (reads : SampleReads) : State := sampleWork reads { s with clock := s.clock.sampled }

theorem State.worked_still (s : State) (reads : SampleReads) :
    (s.worked reads).still = State.still { s with clock := s.clock.sampled } := sampleWork_still ..

theorem houseSample_negated {s : State} (line : s.resetLine = false) (reads : SampleReads) :
    houseSample reads s = markBlock (s.worked reads) := by
  rw [houseSample, if_neg (by simp [line])]
  rfl

theorem State.worked_clock (s : State) (reads : SampleReads) : (s.worked reads).clock = s.clock.sampled :=
  State.clock_of_still (sampleWork_still ..)

theorem markBlock_clock (s : State) : (markBlock s).clock = s.clock := by
  unfold markBlock
  split <;> rfl

@[simp] theorem houseSample_clock (reads : SampleReads) (s : State) : (houseSample reads s).clock =
    if s.resetLine then { s.clock with wclkOut := s.clock.wclkOut + 1 } else s.clock.sampled := by
  cases line : s.resetLine
  · rw [houseSample_negated line, markBlock_clock, State.worked_clock]
    rfl
  · rw [houseSample, if_pos line]
    rfl

/-! ## Commands that leave the awaiting commands (R100, R101) -/

@[simp] theorem completeFeed_awaiting (x : Side) (reason : Reason) (s : State) :
    (completeFeed x reason s).sel.awaiting = s.sel.awaiting := rfl

@[simp] theorem setRole_awaiting (x : Side) (role : ProgRole) (s : State) :
    (setRole x role s).sel.awaiting = s.sel.awaiting := rfl

@[simp] theorem setEnding_awaiting (x : Side) (reason : Reason) (s : State) :
    (setEnding x reason s).sel.awaiting = s.sel.awaiting := rfl

@[simp] theorem enterSilent_awaiting (heard : Option Side) (cause : SilenceCause) (s : State) :
    (enterSilent heard cause s).sel.awaiting = s.sel.awaiting := rfl

@[simp] theorem finishOutgoing_awaiting (x : Side) (s : State) :
    (finishOutgoing x s).sel.awaiting = s.sel.awaiting := by
  unfold finishOutgoing
  split
  · rfl
  · split <;> rfl
  · rfl

@[simp] theorem caughtUp_awaiting (s : State) : (caughtUp s).sel.awaiting = s.sel.awaiting := by
  unfold caughtUp
  split
  · unfold endTransition
    split
    · rfl
    · split
      · show (finishOutgoing _ (completeFeed _ _ s)).sel.awaiting = _
        rw [finishOutgoing_awaiting]
        rfl
      · exact finishOutgoing_awaiting ..
    · split <;> rfl
    · rfl
  · rfl

@[simp] theorem fadeBack_awaiting (x : Side) (reason : Reason) (s : State) :
    (fadeBack x reason s).sel.awaiting = s.sel.awaiting := by
  unfold fadeBack
  split <;> rfl

@[simp] theorem stopOnAir_awaiting (x : Side) (handover : Bool) (s : State) :
    (stopOnAir x handover s).2.sel.awaiting = s.sel.awaiting := by
  unfold stopOnAir
  split
  · split <;> rfl
  · exact fadeBack_awaiting ..
  · split <;> rfl
  · rfl

@[simp] theorem stopTaken_awaiting (r : Role) (x : Side) (handover : Bool) (s : State) :
    (stopTaken r x handover s).sel.awaiting = s.sel.awaiting := by
  unfold stopTaken
  split
  · split
    · exact stopOnAir_awaiting ..
    · rfl
  · rfl

@[simp] theorem onairSteps_awaiting (feed : Nat) (s : State) : (onairSteps feed s).2.sel.awaiting = s.sel.awaiting := by
  unfold onairSteps
  split
  · rfl
  · split
    · rfl
    · rfl
    · rfl
    · split
      · rfl
      · split <;> rfl
    · split
      · dsimp only [beginRise_sel, State.onSel_sel]
        split <;> rfl
      · rfl

@[simp] theorem orderTaken_awaiting (o : AwaitedOrder) (s : State) :
    (orderTaken o s).sel.awaiting = s.sel.awaiting := by
  cases o with
  | stop r x handover => exact stopTaken_awaiting ..
  | onair feed => exact onairSteps_awaiting ..

/-- The turn of the first awaiting command comes when its block event has fallen (R100). -/
theorem Selector.turn_cons {v : Selector} {e : Awaiting} {l : List Awaiting} (h : v.awaiting = e :: l) :
    v.turn = if e.due then some e.order else none := by
  rw [Selector.turn, h]

theorem turnTake_of_none {s : State} (h : s.sel.turn = none) : turnTake s = s := by rw [turnTake, h]

theorem turnTake_awaiting {s : State} {o : AwaitedOrder} (h : s.sel.turn = some o) :
    (turnTake s).sel.awaiting = s.sel.awaiting.tail := by
  rw [turnTake, h]
  show (orderTaken o _).sel.awaiting = _
  rw [orderTaken_awaiting]
  exact congrArg List.tail (caughtUp_awaiting s)

/-- The turn-taking row of an awaiting command. -/
def Awaiting.row (e : Awaiting) : Instr :=
  match e.order with
  | .stop r _ _ => .stopOnAirTake r
  | .onair _ => .onairTake

/-- The row of the command whose turn it is takes it, and a row before its command's turn takes nothing (R100). -/
theorem row_takes {s : State} (line : s.resetLine = false) {e : Awaiting}
    (turn : s.sel.turn = none ∨ s.sel.turn = some e.order) : exec e.row s = .next (turnTake s) := by
  obtain ⟨order, due⟩ := e
  cases order with
  | stop r x handover =>
    show Host.Outcome.next (stopTake r s) = _
    obtain none | some := turn
    · simp [stopTake, line, none, turnTake]
    · simp [stopTake, line, some]
  | onair feed =>
    show Host.Outcome.next (onairTake s) = _
    obtain none | some := turn
    · simp [onairTake, line, none, turnTake]
    · simp [onairTake, line, some]

/-- The rows of the commands that are due take them in the order of their arrival (R100). -/
theorem dueOrders_rows (take : State → Instr → State) (takes : ∀ c s t, exec c s = .next t → take s c = t)
    {s : State} (line : s.resetLine = false) :
    dueOrders s = ((s.sel.awaiting.filter fun e => e.due).map Awaiting.row).foldl take s := by
  have idle (l : List Awaiting) {t : State} (lineT : t.resetLine = false) (turn : t.sel.turn = none) :
      (l.map Awaiting.row).foldl take t = l.foldl (fun t _ => turnTake t) t := by
    induction l with
    | nil => rfl
    | cons e l ih =>
      have none := turnTake_of_none turn
      simp only [List.map_cons, List.foldl_cons, takes _ _ _ (row_takes lineT (.inl turn)), none, ih]
  have runs (l : List Awaiting) {t : State} (lineT : t.resetLine = false) (front : t.sel.awaiting = l) :
      ((l.filter fun e => e.due).map Awaiting.row).foldl take t =
        (l.filter fun e => e.due).foldl (fun t _ => turnTake t) t := by
    induction l generalizing t with
    | nil => rfl
    | cons e l ih =>
      have turn := Selector.turn_cons front
      cases due : e.due with
      | false => exact idle _ lineT (by rw [turn, due]; rfl)
      | true =>
        have mine : t.sel.turn = some e.order := by rw [turn, due]; rfl
        rw [List.filter_cons_of_pos (by exact due), List.map_cons, List.foldl_cons, List.foldl_cons,
          takes _ _ _ (row_takes lineT (.inr mine))]
        exact ih ((State.resetLine_of_plant (turnTake_plant t)).trans lineT)
          ((turnTake_awaiting mine).trans (congrArg List.tail front))
  exact (runs _ line rfl).symm

/-! ## What a cue can change, and a block event (R160) -/

/-- The state without what the program, the cues and their owners change. -/
def State.shell (s : State) : State := { s.outside with cues := [], groups := 0, scene := sceneReset }

theorem State.shell_of_outside {s t : State} (h : t.outside = s.outside) : t.shell = s.shell := by
  unfold State.shell
  rw [h]

theorem State.clock_of_shell {s t : State} (h : t.shell = s.shell) : t.clock = s.clock := by
  have k := congrArg State.clock h
  exact k

theorem State.resetLine_of_shell {s t : State} (h : t.shell = s.shell) : t.resetLine = s.resetLine := by
  have k := congrArg State.resetLine h
  exact k

theorem takeBank_shell (s : State) : (takeBank s).2.2.shell = s.shell := by
  unfold takeBank
  split <;> rfl

theorem groupStep_shell (g : Nat) (on : Bool) (s : State) : (groupStep g on s).2.shell = s.shell := by
  unfold groupStep
  split <;> rfl

theorem fireCue_shell (c : Cue) (s : State) : (fireCue c s).shell = s.shell := by
  have act : (cueAct c s).2.shell = s.shell := by
    unfold cueAct
    split
    · exact takeBank_shell s
    · exact groupStep_shell ..
    · exact groupStep_shell ..
    · exact State.shell_of_outside (onairSteps_outside ..)
    · rfl
  exact (State.shell_of_outside (raiseIf_outside ..)).trans act

@[simp] theorem cuePass_shell (s : State) : (cuePass s).shell = s.shell :=
  foldl_keeps (P := fun u => u.shell = s.shell) (fun u c hu => (fireCue_shell c u).trans hu) _ rfl

theorem removeReleased_shell (s : State) : (removeReleased s).shell = s.shell := rfl

@[simp] theorem selectorJudgements_shell (s : State) : (selectorJudgements s).shell = s.shell :=
  (removeReleased_shell _).trans (State.shell_of_outside (by simp))

@[simp] theorem runningBlock_shell (cuesFirst : Bool) (s : State) : (runningBlock cuesFirst s).shell = s.shell := by
  have served : (servoStep ((s.onFeed .a Feed.clearUnderrun).onFeed .b Feed.clearUnderrun)).shell = s.shell :=
    State.shell_of_outside (by simp)
  unfold runningBlock
  dsimp only
  split <;> simp [served]

theorem scrubStep_resetLine (s : State) : (scrubStep s).resetLine = s.resetLine := by
  unfold scrubStep
  split <;> rfl

theorem clockReturn_resetLine (s : State) : (clockReturn s).resetLine = s.resetLine := by
  unfold clockReturn
  split <;> rfl

theorem blockEvent_resetLine (mute cuesFirst : Bool) (s : State) :
    (blockEvent mute cuesFirst s).resetLine = s.resetLine := by
  unfold blockEvent
  split
  · have sampled : (sampleMute (clockReturn { caughtUp s with blockDue := false, mutePin := mute })).resetLine =
        s.resetLine := (clockReturn_resetLine _).trans (caughtUp_resetLine s)
    unfold blockWork
    dsimp only
    split
    · exact (scrubStep_resetLine _).trans sampled
    · exact (State.resetLine_of_shell (runningBlock_shell ..)).trans sampled
  · rfl

/-! ## O9 -/

/-- What is due before the block event. -/
def dueWindows : List Instr :=
  [.transitionEnd, .paceWindowExpiry .a, .paceWindowExpiry .b, .burstWindowExpiry .a, .burstWindowExpiry .b,
    .returnPeriodGood, .flushComplete]

/-- What is due with the block event, and before the awaiting commands. -/
def dueBlock (mutePin : Bool) : List Instr :=
  [.blockEvent mutePin false, .startupEnd, .laneBlockAbandon .a .l0, .laneBlockAbandon .a .l1, .laneBlockAbandon .b .l0,
    .laneBlockAbandon .b .l1, .watchPeriodClose .a, .watchPeriodClose .b]

section Settling

variable (take : State → Instr → State) (takes : ∀ c s t, exec c s = .next t → take s c = t)
include takes

theorem dueWindows_taken (s : State) : dueWindows.foldl take s = flushComplete (returnGood (expiries (transitionEnd s))) := by
  simp only [dueWindows, List.foldl_cons, List.foldl_nil]
  rw [takes .transitionEnd s _ rfl, takes (.paceWindowExpiry .a) _ _ rfl, takes (.paceWindowExpiry .b) _ _ rfl,
    takes (.burstWindowExpiry .a) _ _ rfl, takes (.burstWindowExpiry .b) _ _ rfl, takes .returnPeriodGood _ _ rfl,
    takes .flushComplete _ _ rfl]
  rfl

theorem dueBlock_taken (mutePin : Bool) (s : State) : (dueBlock mutePin).foldl take s =
    watchClose .b (watchClose .a (abandons (startupEnd (blockEvent mutePin false s)))) := by
  simp only [dueBlock, List.foldl_cons, List.foldl_nil]
  rw [takes (.blockEvent mutePin false) s _ rfl, takes .startupEnd _ _ rfl, takes (.laneBlockAbandon .a .l0) _ _ rfl,
    takes (.laneBlockAbandon .a .l1) _ _ rfl, takes (.laneBlockAbandon .b .l0) _ _ rfl,
    takes (.laneBlockAbandon .b .l1) _ _ rfl, takes (.watchPeriodClose .a) _ _ rfl,
    takes (.watchPeriodClose .b) _ _ rfl]
  rfl

omit takes in
theorem returnGood_resetLine (s : State) : (returnGood s).resetLine = s.resetLine := by
  unfold returnGood
  split <;> rfl

omit takes in
theorem startupEnd_resetLine (s : State) : (startupEnd s).resetLine = s.resetLine := by
  unfold startupEnd
  split <;> rfl

/-- What fell due is taken row by row (log 4). -/
theorem settle_rows {s u v w : State} (hu : u = dueWindows.foldl take s) (hv : v = (dueBlock u.mutePin).foldl take u)
    (hw : w = ((v.sel.awaiting.filter fun e => e.due).map Awaiting.row).foldl take v) (line : s.resetLine = false) :
    Machine.settle s = take (take w .sceneCopy) .take := by
  rw [dueWindows_taken take takes] at hu
  rw [dueBlock_taken take takes] at hv
  have lineU : u.resetLine = false := by
    rw [hu, State.resetLine_of_plant (flushComplete_plant _), returnGood_resetLine,
      State.resetLine_of_plant (expiries_plant _), State.resetLine_of_plant (transitionEnd_plant _), line]
  have lineV : v.resetLine = false := by
    rw [hv, State.resetLine_of_plant (watchClose_plant ..), State.resetLine_of_plant (watchClose_plant ..),
      State.resetLine_of_plant (abandons_plant _), startupEnd_resetLine, blockEvent_resetLine, lineU]
  rw [← dueOrders_rows take takes lineV] at hw
  rw [takes .sceneCopy w _ rfl, takes .take _ _ rfl, hw, hv, hu, Machine.settle, if_neg (by simp [line])]
  rfl

end Settling

/-- A terminal count with the RESET line negated or asserted (R1). -/
theorem terminalCount_cases (reads : SampleReads) (s : State) :
    (s.mclkStopped = true → terminalCount reads s = s) ∧
    (s.mclkStopped = false → s.clock.state = .following →
      terminalCount reads s = { s with clock := { s.clock with divCount := 0, loadedN := s.clock.n } }) ∧
    (s.mclkStopped = false → s.clock.state ≠ .following →
      terminalCount reads s =
        houseSample reads { s with clock := { s.clock with divCount := 0, loadedN := s.clock.n } }) := by
  refine ⟨fun stopped => by rw [terminalCount, if_pos stopped], fun runs following => ?_, fun runs other => ?_⟩
  · rw [terminalCount, if_neg (by simp [runs]), if_pos following]
    rfl
  · rw [terminalCount, if_neg (by simp [runs]), if_neg other]
    rfl

/-- An edge in FOLLOWING is a house sample event unless the master clock is stopped (R1, R3). -/
theorem wordClockEdge_following (reads : SampleReads) {s : State} (following : s.clock.state = .following) :
    wordClockEdge reads s =
      if s.mclkStopped then
        { s with clock := { s.clock with divCount := 0, loadedN := s.clock.n, lossMeasure := 0 } }
      else
        houseSample reads
          { s with clock := { s.clock with divCount := 0, loadedN := s.clock.n, lossMeasure := 0 } } := by
  rw [wordClockEdge, following]
  rfl

/-- A house sample event is a block event where the new counter is a multiple of 32 (R9). -/
theorem markBlock_of {s : State} (h : s.clock.counter.toNat % 32 = 0) : markBlock s = blockFalls s := if_pos h

theorem markBlock_of_not {s : State} (h : ¬ s.clock.counter.toNat % 32 = 0) : markBlock s = s := if_neg h

/-- A part of the state that neither the clock, the work of a house sample nor the fall of a block event holds. -/
theorem houseSample_view {β : Type} {s : State} (line : s.resetLine = false) (reads : SampleReads) (view : State → β)
    (falls : ∀ u, view (blockFalls u) = view u) (blank : ∀ u, view u.still = view u)
    (clocked : ∀ u c, view { u with clock := c } = view u) : view (houseSample reads s) = view s := by
  have worked : view (s.worked reads) = view s := by rw [← blank, s.worked_still, blank, clocked]
  rw [houseSample_negated line]
  unfold markBlock
  split
  · rw [falls, worked]
  · exact worked

/-- What a house sample event always leaves, and what it counts (R5, R7 to R9). -/
theorem houseSample_leaves {s t : State} {reads : SampleReads} (line : s.resetLine = false) (ht : t = houseSample reads s) :
    t.clock.counter = s.clock.counter + 1 ∧ t.clock.wclkOut = s.clock.wclkOut + 1 ∧
     (∀ c, s.clock.state = .holdover → s.clock.watch = .counting c → t.clock.watch = .counting (c + 1)) ∧
     (s.clock.state ≠ .holdover ∨ s.clock.watch = .idle ∨ s.clock.watch = .waiting → t.clock.watch = s.clock.watch) ∧
     t.clock = { s.clock with counter := t.clock.counter, wclkOut := t.clock.wclkOut, watch := t.clock.watch } ∧
     t.blockDue = (s.blockDue || decide ((s.clock.counter + 1).toNat % 32 = 0)) ∧
     (t.pagesA, t.pagesB, t.pagesD) = (s.pagesA, s.pagesB, s.pagesD) ∧
     (t.groups, t.gcMute, t.muteLast, t.muteAccepted, t.mutePin, t.mclkStopped) =
       (s.groups, s.gcMute, s.muteLast, s.muteAccepted, s.mutePin, s.mclkStopped) ∧
     t.cues = s.cues ∧ t.bus = s.bus ∧ t.notices.routing = s.notices.routing ∧ t.pending = s.pending ∧
     t.scene.pendingBank = s.scene.pendingBank ∧ t.scene.state = s.scene.state ∧ t.scene.cut = s.scene.cut ∧
     t.feedA.setup = s.feedA.setup ∧ t.feedB.setup = s.feedB.setup := by
  have clock : t.clock = s.clock.sampled := by
    rw [ht, houseSample_clock, if_neg (by simp [line])]
  have still := s.worked_still reads
  have marked : t = markBlock (s.worked reads) := ht.trans (houseSample_negated line reads)
  have counter : (s.worked reads).clock.counter = s.clock.counter + 1 := congrArg Clock.counter (s.worked_clock reads)
  have due : t.blockDue = (s.blockDue || decide ((s.clock.counter + 1).toNat % 32 = 0)) := by
    have before : (s.worked reads).blockDue = s.blockDue := by
      have k := congrArg State.blockDue still
      exact k
    rw [marked]
    by_cases falls : (s.clock.counter + 1).toNat % 32 = 0
    · rw [markBlock_of (by rw [counter]; exact falls)]
      rw [decide_eq_true falls, Bool.or_true]
      rfl
    · rw [markBlock_of_not (by rw [counter]; exact falls)]
      rw [decide_eq_false falls, Bool.or_false, before]
  have same {β : Type} (view : State → β) (falls : ∀ u, view (blockFalls u) = view u)
      (blank : ∀ u, view u.still = view u) (clocked : ∀ u c, view { u with clock := c } = view u) : view t = view s :=
    ht ▸ houseSample_view line reads view falls blank clocked
  refine ⟨by rw [clock]; rfl, by rw [clock]; rfl, fun c holdover counting => ?_, fun other => ?_, by rw [clock]; rfl, due,
    same (fun u => (u.pagesA, u.pagesB, u.pagesD)) (fun _ => rfl) (fun _ => rfl) (fun _ _ => rfl),
    same (fun u => (u.groups, u.gcMute, u.muteLast, u.muteAccepted, u.mutePin, u.mclkStopped)) (fun _ => rfl)
      (fun _ => rfl) (fun _ _ => rfl),
    same State.cues (fun _ => rfl) (fun _ => rfl) (fun _ _ => rfl),
    same State.bus (fun _ => rfl) (fun _ => rfl) (fun _ _ => rfl),
    same (fun u => u.notices.routing) (fun _ => rfl) (fun _ => rfl) (fun _ _ => rfl),
    same State.pending (fun _ => rfl) (fun _ => rfl) (fun _ _ => rfl),
    same (fun u => u.scene.pendingBank) (fun _ => rfl) (fun _ => rfl) (fun _ _ => rfl),
    same (fun u => u.scene.state) (fun _ => rfl) (fun _ => rfl) (fun _ _ => rfl),
    same (fun u => u.scene.cut) (fun _ => rfl) (fun _ => rfl) (fun _ _ => rfl),
    same (fun u => u.feedA.setup) (fun u => ?_) (fun _ => rfl) (fun _ _ => rfl),
    same (fun u => u.feedB.setup) (fun u => ?_) (fun _ => rfl) (fun _ _ => rfl)⟩
  · rw [clock]
    simp [Clock.sampled, holdover, counting, ReturnWatch.counted]
  · rw [clock]
    obtain other | idle | waiting := other
    · simp [Clock.sampled, other]
    · simp [Clock.sampled, idle, ReturnWatch.counted]
    · simp [Clock.sampled, waiting, ReturnWatch.counted]
  · simp only [blockFalls]
    split <;> rfl
  · simp only [blockFalls]
    split <;> rfl

theorem Feed.heard_of_intake {f g : Feed} (h : f.intake = g.intake) :
    f.rx0 = g.rx0 ∧ f.rx1 = g.rx1 ∧ f.watch = g.watch ∧ f.intakeEnded = g.intakeEnded := by
  have rx0 := congrArg Feed.rx0 h
  have rx1 := congrArg Feed.rx1 h
  have watch := congrArg Feed.watch h
  have ended := congrArg Feed.intakeEnded h
  exact ⟨rx0, rx1, watch, ended⟩

theorem State.worked_intake (s : State) (reads : SampleReads) (x : Side) :
    ((s.worked reads).feed x).intake = (s.feed x).intake := by
  have same := State.intakes_of_still (s.worked_still reads) x
  cases x <;> exact same

/-- A block event falls on the feeds while RUNNING alone (R12, R29). -/
theorem blockFalls_feed (s : State) (x : Side) :
    (blockFalls s).feed x = if s.starting then s.feed x else (s.feed x).blockFell := by
  cases x <;> rfl

@[simp] theorem Feed.blockFell_inPlay (f : Feed) : f.blockFell.inPlay = f.inPlay := rfl

/-- What becomes due, and what counts, as a block event falls (R9, R15, R29). -/
theorem houseSample_falls {s t : State} {reads : SampleReads} {falls : Prop} {fell : Await → Await}
    {heard : Receiver → Receiver} (line : s.resetLine = false) (ht : t = houseSample reads s)
    (hfalls : falls ↔ (s.clock.counter + 1).toNat % 32 = 0) (hfell : ∀ a, fell a = a.fell)
    (hheard : ∀ r, heard r = r.blockFell) :
     (falls →
       t.sel.awaiting = s.sel.awaiting.map (fun e => { e with due := true }) ∧
       t.scene.copy = fell s.scene.copy ∧ t.scene.take = fell s.scene.take ∧
       (s.clock.phase = .running → ∀ x,
         ((t.feed x).rx0, (t.feed x).rx1) = (heard (s.feed x).rx0, heard (s.feed x).rx1) ∧
         ((s.feed x).watch.armed = true → (t.feed x).inPlay = true → (s.feed x).intakeEnded = false →
           (t.feed x).watch = { (s.feed x).watch with blocks := (s.feed x).watch.blocks + 1 }) ∧
         ((s.feed x).watch.armed = false ∨ (t.feed x).inPlay = false ∨ (s.feed x).intakeEnded = true →
           (t.feed x).watch = (s.feed x).watch))) ∧
     (¬ falls →
       t.sel.awaiting = s.sel.awaiting ∧ t.scene.copy = s.scene.copy ∧ t.scene.take = s.scene.take) ∧
     (¬ falls ∨ s.clock.phase = .starting → ∀ x,
       ((t.feed x).rx0, (t.feed x).rx1, (t.feed x).watch) = ((s.feed x).rx0, (s.feed x).rx1, (s.feed x).watch)) := by
  obtain ⟨w, hw⟩ : ∃ w, w = s.worked reads := ⟨_, rfl⟩
  have marked : t = markBlock w := by rw [ht, houseSample_negated line, hw]
  have clock : w.clock = s.clock.sampled := hw ▸ s.worked_clock reads
  have counter : falls ↔ w.clock.counter.toNat % 32 = 0 := by
    rw [clock]
    exact hfalls
  have phase : w.starting = s.starting := by
    rw [State.starting, clock]
    rfl
  have still : w.still = State.still { s with clock := s.clock.sampled } := hw ▸ s.worked_still reads
  have awaiting : w.sel.awaiting = s.sel.awaiting := by
    have k := State.awaiting_of_still still
    exact k
  have scene := State.scene_of_still still
  have copy : w.scene.copy = s.scene.copy := by simpa using congrArg Scene.copy scene
  have taken : w.scene.take = s.scene.take := by simpa using congrArg Scene.take scene
  have intake (x : Side) := Feed.heard_of_intake (hw ▸ s.worked_intake reads x : (w.feed x).intake = _)
  refine ⟨fun yes => ?_, fun no => ?_, fun quiet x => ?_⟩
  · have e : t = blockFalls w := marked.trans (markBlock_of (counter.mp yes))
    refine ⟨?_, ?_, ?_, fun running x => ?_⟩
    · rw [e, ← awaiting]
      rfl
    · rw [e, hfell, ← copy]
      rfl
    · rw [e, hfell, ← taken]
      rfl
    · have feed : t.feed x = (w.feed x).blockFell := by
        rw [e, blockFalls_feed, phase, if_neg (by simp [State.starting, running])]
      obtain ⟨rx0, rx1, watch, ended⟩ := intake x
      have judged : (t.feed x).watch = if (s.feed x).watch.armed && (t.feed x).inPlay && !(s.feed x).intakeEnded then
          { (s.feed x).watch with blocks := (s.feed x).watch.blocks + 1 } else (s.feed x).watch := by
        rw [feed, Feed.blockFell_inPlay, ← watch, ← ended]
        rfl
      refine ⟨?_, fun armed play going => ?_, fun idle => ?_⟩
      · rw [feed, hheard, hheard, ← rx0, ← rx1]
        rfl
      · rw [judged, armed, play, going]
        rfl
      · rw [judged]
        obtain c | c | c := idle <;> simp [c]
  · have e : t = w := marked.trans (markBlock_of_not fun c => no (counter.mpr c))
    exact ⟨e ▸ awaiting, e ▸ copy, e ▸ taken⟩
  · have feed : t.feed x = w.feed x := by
      by_cases yes : falls
      · have starting := quiet.resolve_left (not_not_intro yes)
        rw [marked, markBlock_of (counter.mp yes), blockFalls_feed, phase, if_pos (by simp [State.starting, starting])]
      · rw [marked, markBlock_of_not fun c => yes (counter.mpr c)]
    obtain ⟨rx0, rx1, watch, -⟩ := intake x
    rw [feed, rx0, rx1, watch]

/-- Settles O9: the clock rows are read off, and a house sample's work keeps all but the program and the outputs. -/
theorem clockEvents : Obligations.ClockEvents := by
  refine ⟨fun s u v w take row takes rows hu hv hw => ⟨fun line => if_pos line, fun line => ?_⟩,
    fun s u reads hu _ => ?_, fun s u reads stopped hu line => ?_, fun s t reads line ht => houseSample_leaves line ht,
    fun s t reads falls fell heard line ht hfalls hfell hheard => houseSample_falls line ht hfalls ?_ ?_⟩
  · obtain rfl : row = Awaiting.row := funext rows
    exact settle_rows take takes hu hv hw line
  · show (_ → Host.Outcome.next (terminalCount reads (settle s)) = _) ∧ (_ → _ → Host.Outcome.next _ = _) ∧
      (_ → _ → Host.Outcome.next _ = _)
    rw [← hu]
    obtain ⟨stopped, following, other⟩ := terminalCount_cases reads u
    exact ⟨fun a => congrArg _ (stopped a), fun a b => congrArg _ (following a b), fun a b => congrArg _ (other a b)⟩
  · have edge : exec (.wordClockEdge ⟨reads, stopped⟩) s = .next (wordClockEdge reads u) := hu ▸ rfl
    have given : u.mclkStopped = stopped := by rw [hu]
    refine ⟨fun state => ?_, fun state => ?_, fun state idle => ?_, fun state busy => ?_⟩
    · rw [edge, wordClockEdge, state]
    · rw [edge, wordClockEdge_following reads state, given]
    · rw [edge, wordClockEdge, state]
      simp [Clock.edgeInHoldover, idle, line]
    · rw [edge, wordClockEdge, state]
      simp [Clock.edgeInHoldover, busy]
  · intro a
    rw [hfell]
    cases a <;> rfl
  · intro r
    rw [hheard]
    cases r <;> rfl

/-! ## O2 -/

/-- The queue is this one. -/
def State.Queued (q : List Instr) (s : State) : Prop := s.pending = q

theorem State.Queued.blind {q : List Instr} {s t : State} (e : t.outside = s.outside) (h : s.Queued q) : t.Queued q :=
  (State.pending_of_outside e).trans h

theorem queued_events (q : List Instr) : KeptByEvents (State.Queued q) := by
  refine .of_outside .blind (fun {s t} e h => ?_) (fun _ h => h) (fun _ h => h) (fun _ h => h) (fun _ h => h) fun _ h => h
  have k := congrArg State.pending e
  exact Eq.trans k h

/-- No command touches the queue. -/
theorem exec_pending {c : Instr} {s t : State} (e : exec c s = .next t) : t.pending = s.pending :=
  exec_keeps (P := State.Queued s.pending) (.of_outside .blind (queued_events _) (fun _ _ _ h => h) (fun _ h => h) fun h => h)
    (.of_outside .blind (queued_events _)) rfl e

section Idle

variable {s : State} (empty : s.pending = [])
include empty

theorem step_idle : step s = .next (tick s) := by rw [step, empty]

variable (runs : s.mclkStopped = false) (still : settle s = s)
include runs still

/-- With nothing due an idle step is one period of the master clock (R1, R4). -/
theorem step_period : step s = .next (measureTick (dividerTick s)) := by
  rw [step_idle empty, tick, if_neg (by simp [runs]), still]

omit empty still in
/-- The divider's period where its terminal count makes no house sample (R1). -/
theorem dividerTick_following (following : s.clock.state = .following) : dividerTick s =
    { s with
      clock := if s.clock.divCount + 1 < 4 * (s.clock.loadedN + 1) then { s.clock with divCount := s.clock.divCount + 1 }
        else { s.clock with divCount := 0, loadedN := s.clock.n } } := by
  obtain ⟨-, ends, -⟩ := terminalCount_cases quietReads s
  unfold dividerTick
  by_cases full : 4 * (s.clock.loadedN + 1) ≤ s.clock.divCount + 1
  · rw [if_pos full, ends runs following, if_neg (Nat.not_lt.mpr full)]
  · rw [if_neg full, if_pos (Nat.not_le.mp full)]

omit empty still in
/-- The divider's period where its terminal count is a house sample event (R1). -/
theorem dividerTick_free (free : s.clock.state ≠ .following) : dividerTick s =
    if s.clock.divCount + 1 < 4 * (s.clock.loadedN + 1) then
      { s with clock := { s.clock with divCount := s.clock.divCount + 1 } }
    else houseSample quietReads { s with clock := { s.clock with divCount := 0, loadedN := s.clock.n } } := by
  obtain ⟨-, -, samples⟩ := terminalCount_cases quietReads s
  unfold dividerTick
  by_cases full : 4 * (s.clock.loadedN + 1) ≤ s.clock.divCount + 1
  · rw [if_pos full, samples runs free, if_neg (Nat.not_lt.mpr full)]
  · rw [if_neg full, if_pos (Nat.not_le.mp full)]

end Idle

/-- The divider's period leaves the clock state and the loss measure (R4). -/
theorem dividerTick_measure (s : State) : (dividerTick s).clock.state = s.clock.state ∧
    (dividerTick s).clock.lossMeasure = s.clock.lossMeasure := by
  have sampled (u : State) : (houseSample quietReads u).clock.state = u.clock.state ∧
      (houseSample quietReads u).clock.lossMeasure = u.clock.lossMeasure := by
    rw [houseSample_clock]
    split <;> exact ⟨rfl, rfl⟩
  unfold dividerTick terminalCount
  split
  · split
    · exact ⟨rfl, rfl⟩
    · split
      · exact ⟨rfl, rfl⟩
      · exact sampled _
  · exact ⟨rfl, rfl⟩

theorem dividerTick_stopped (s : State) : (dividerTick s).mclkStopped = s.mclkStopped := by
  have sampled (u : State) : (houseSample quietReads u).mclkStopped = u.mclkStopped := by
    cases line : u.resetLine
    · refine houseSample_view line quietReads State.mclkStopped (fun _ => rfl) (fun _ => rfl) fun _ _ => rfl
    · rw [houseSample, if_pos line]
      rfl
  unfold dividerTick terminalCount
  split
  · split
    · rfl
    · split
      · rfl
      · exact sampled _
  · rfl

/-- The loss measure's period (R4, R5). -/
theorem measureTick_of_short {u : State} (watched : u.clock.state ≠ .internal) (short : u.clock.lossMeasure + 1 < 2048) :
    measureTick u = { u with clock := { u.clock with lossMeasure := u.clock.lossMeasure + 1 } } := by
  have short : ¬ Config.lossPeriods ≤ u.clock.lossMeasure + 1 := Nat.not_le.mpr short
  rw [measureTick, if_neg watched, if_neg short]

theorem measureTick_of_full {u : State} (watched : u.clock.state ≠ .internal) (full : 2048 ≤ u.clock.lossMeasure + 1) :
    measureTick u = measureFull u := by
  have full : Config.lossPeriods ≤ u.clock.lossMeasure + 1 := full
  rw [measureTick, if_neg watched, if_pos full]

/-- A loss makes the watch idle, so no loss condition follows it (R5). -/
theorem measureFull_following {u : State} (following : u.clock.state = .following) :
    measureFull u = wordClockLoss { u with clock := { u.clock with lossMeasure := 0 } } := by
  unfold measureFull wordClockLoss
  by_cases stopped : u.mclkStopped = true
  · simp only [stopped, if_true, lossCondition]
  · simp [stopped, following, lossCondition, raise, Clock.lossCondition]

theorem measureFull_holdover {u : State} (holdover : u.clock.state = .holdover) :
    measureFull u = lossCondition { u with clock := { u.clock with lossMeasure := 0 } } := by
  simp [measureFull, wordClockLoss, holdover]

/-- Settles O2. -/
theorem queueAndIdle : Obligations.QueueAndIdle := by
  refine ⟨fun c s t e => exec_pending e, fun s empty stopped => ?_, fun s empty runs still internal => ?_,
    fun s c empty runs still following hc => ?_, fun s u empty runs still holdover hu => ?_⟩
  · rw [step_idle empty, tick, if_pos stopped]
  · have unwatched : measureTick (dividerTick s) = dividerTick s := by
      rw [measureTick, if_pos ((dividerTick_measure s).1.trans internal)]
    rw [step_period empty runs still, unwatched, dividerTick_free runs (by simp [internal])]
    exact ⟨fun short => by rw [if_pos short], fun full => by rw [if_neg (Nat.not_lt.mpr full)]; rfl⟩
  · obtain ⟨state, measure⟩ := dividerTick_measure s
    have watched : (dividerTick s).clock.state ≠ .internal := by simp [state, following]
    have divided : dividerTick s = { s with clock := c } := by rw [dividerTick_following runs following, hc]
    rw [step_period empty runs still]
    refine ⟨fun short => ?_, fun full => ?_⟩
    · rw [measureTick_of_short watched (measure ▸ short), measure, divided]
    · rw [measureTick_of_full watched (measure ▸ full), measureFull_following (state.trans following), divided]
      rfl
  · obtain ⟨state, measure⟩ := dividerTick_measure s
    have watched : (dividerTick s).clock.state ≠ .internal := by simp [state, holdover]
    have divided : dividerTick s = u := (dividerTick_free runs (by simp [holdover])).trans hu.symm
    rw [step_period empty runs still]
    refine ⟨fun short => ?_, fun full => ?_⟩
    · rw [measureTick_of_short watched (measure ▸ short), measure, divided]
    · rw [measureTick_of_full watched (measure ▸ full), measureFull_holdover (state.trans holdover), divided]
      rfl

/-! ## O10 -/

/-- Settles O10. -/
theorem clockWatch : Obligations.ClockWatch := by
  refine ⟨fun s stopped => ⟨?_, ?_⟩, fun s runs => ⟨fun other => ?_, fun line following => ?_, fun line following => ?_⟩,
    fun s runs => ⟨fun holdover busy => ?_, fun quiet => ?_⟩,
    fun s c line holdover counting => ⟨fun short => ?_, fun full good => ?_, fun full good => ?_⟩⟩
  · show Host.Outcome.next (wordClockLoss s) = _
    rw [wordClockLoss, if_pos stopped]
  · show Host.Outcome.next (lossCondition s) = _
    rw [lossCondition, if_pos stopped]
  · show Host.Outcome.next (wordClockLoss s) = _
    rw [wordClockLoss, if_neg (by simp [runs]), if_neg other]
  · show Host.Outcome.next (wordClockLoss s) = _
    rw [wordClockLoss, if_neg (by simp [runs]), if_pos following]
    rfl
  · show Host.Outcome.next (wordClockLoss s) = _
    rw [wordClockLoss, if_neg (by simp [runs]), if_pos following, raise, if_pos line]
  · show Host.Outcome.next (lossCondition s) = _
    rw [lossCondition, if_neg (by simp [runs]), if_pos holdover, Clock.lossCondition]
    cases watch : s.clock.watch with
    | idle => exact absurd watch busy
    | counting c => rfl
    | waiting => rfl
  · show Host.Outcome.next (lossCondition s) = _
    rw [lossCondition, if_neg (by simp [runs])]
    obtain other | idle := quiet
    · rw [if_neg other]
    · split
      · rw [Clock.lossCondition, idle]
      · rfl
  · show Host.Outcome.next (returnGood s) = _
    have unfull : s.clock.watch.full = false := by
      rw [counting]
      exact decide_eq_false (Nat.not_le.mpr short)
    rw [returnGood, if_neg (by simp [unfull])]
  all_goals
    have isFull : s.clock.watch.full = true := by
      rw [counting]
      exact decide_eq_true full
    show Host.Outcome.next (returnGood s) = _
    rw [returnGood, if_pos (by simp [line, holdover, isFull]), Clock.periodGood, good]
    rfl

/-! ## O4 -/

/-- A frame under the RESET line changes nothing (R179). -/
theorem takeFrame_held {s : State} (line : s.resetLine = true) (code : Byte) (addr : BitVec 7) (p : List Byte)
    (owner : Role → State → State) : takeFrame code addr p owner s = s := by rw [takeFrame, if_pos line]

theorem exec_frame_held {s : State} (line : s.resetLine = true) {i : Instr} {code : Byte} {addr : BitVec 7}
    {p : List Byte} (hi : i.frame = some (code, addr, p)) : exec i s = .next s := by
  obtain ⟨owner, e⟩ := exec_takeFrame hi s
  rw [e, takeFrame_held line]

/-- A write frame judged at its end changes nothing under the RESET line (R179). -/
theorem exec_frameFormatError_held {s : State} (line : s.resetLine = true) (addr : BitVec 7) (bytes : List Byte) :
    exec (.frameFormatError addr bytes) s = .next s := by
  have bad (code : Byte) : badFrame code addr s = s := by rw [badFrame, if_pos line]
  have framed (code : Byte) (p : List Byte) : execFrame code addr p s = .next s := by
    obtain ⟨i, hi, e⟩ | ⟨-, e⟩ := execFrame_cases code addr p
    · rw [e, exec_frame_held line hi]
    · exact (congrFun e s).trans (congrArg Host.Outcome.next (takeFrame_held line ..))
  show execFrameFormatError addr bytes s = _
  unfold execFrameFormatError
  split
  · rfl
  · rw [bad]
  · split
    · exact framed ..
    · rw [bad]

/-- No command but the resets, the clock's and a parity fault acts under the RESET line (R13). -/
theorem exec_held {s : State} (line : s.resetLine = true) (c : Instr) :
    match c with
    | .powerOn _ | .resetAssert | .resetRelease _ | .dividerTerminalCount _ | .wordClockEdge _ | .wordClockLoss
    | .lossCondition | .wordParityFault _ => True
    | _ => exec c s = .next s := by
  cases hf : c.frame with
  | some v =>
    have held := exec_frame_held line (code := v.1) (addr := v.2.1) (p := v.2.2) hf
    cases c <;> trivial
  | none =>
    cases c with
    | frameFormatError addr bytes => exact exec_frameFormatError_held line addr bytes
    | returnPeriodGood => exact congrArg _ (if_neg (by simp [line]))
    | blockEvent mute cuesFirst => exact congrArg _ (if_neg (by simp [line]))
    | startupEnd => exact congrArg _ (if_neg (by simp [line]))
    | laneBlockBegin x l v =>
      refine congrArg _ ((if_congr Iff.rfl ?_ rfl).trans (ite_self s))
      exact if_pos (by simp [line])
    | laneBlockArrive x l bytes => exact congrArg _ (if_pos (by simp [line]))
    | laneBlockAbandon x l => exact congrArg _ (if_neg (by simp [line]))
    | paceWindowExpiry x => exact congrArg _ (if_neg (by simp [line]))
    | burstWindowExpiry x => exact congrArg _ (if_neg (by simp [line]))
    | watchPeriodClose x => exact congrArg _ (if_neg (by simp [line]))
    | stopOnAirTake r => exact congrArg _ (if_pos line)
    | transitionEnd => exact congrArg _ (if_pos line)
    | onairTake => exact congrArg _ (if_pos line)
    | sceneCopy => exact congrArg _ (if_neg (by simp [line]))
    | take => exact congrArg _ (if_neg (by simp [line]))
    | rampEnd input output => exact congrArg _ (if_pos line)
    | duckEnd k => exact congrArg _ (if_pos (by simp [line]))
    | generalCall bytes => exact congrArg _ (if_pos line)
    | flushComplete => exact congrArg _ (if_pos line)
    | busStall addr dir bytes => exact congrArg _ (if_pos line)
    | _ => trivial


/-- The selector after a reset, but for the program position and phase (R107). -/
theorem selectorReset_cleared {v : Selector} (pos phase : Nat) (h : v = { selectorPowerOn with pos := pos, phase := phase }) :
    v.Cleared := by
  subst h
  exact ⟨rfl, rfl, rfl, rfl, rfl, rfl, rfl, rfl, rfl, rfl, rfl, rfl⟩

/-- Nothing is settled under the RESET line (R13). -/
theorem settle_held {s : State} (line : s.resetLine = true) : settle s = s := if_pos line

theorem houseSample_held {s : State} (line : s.resetLine = true) (reads : SampleReads) : houseSample reads s =
    { s with clock := { s.clock with wclkOut := s.clock.wclkOut + 1 }, slots := List.replicate 64 0 } := if_pos line

/-- Settles O4. -/
theorem resetLine_asserted : Obligations.ResetLine := by
  refine ⟨fun s => ⟨resetAssert s, rfl, rfl, ?_, rfl, rfl, rfl, rfl⟩, fun s reads line => ?_, fun s reads stopped line => ?_,
    fun s c line => exec_held line c, fun s strap line => congrArg _ (if_pos line)⟩
  · exact ⟨feedReset_cleared _, feedReset_cleared _, selectorReset_cleared _ _ rfl, ⟨rfl, rfl, rfl, rfl, rfl, rfl⟩,
      outputs_cleared rfl rfl rfl rfl rfl, rfl, front_cleared (strap := s.bus.strap) rfl rfl, rfl, rfl, rfl, rfl⟩
  · have terminal : exec (.dividerTerminalCount reads) s = .next (terminalCount reads s) :=
      congrArg (fun u => Host.Outcome.next (terminalCount reads u)) (settle_held line)
    obtain ⟨halted, following, other⟩ := terminalCount_cases reads s
    refine ⟨fun stopped => by rw [terminal, halted stopped], fun runs free => ?_, fun runs free => by
      rw [terminal, following runs free]⟩
    rw [terminal, other runs free]
    exact congrArg _ (houseSample_held (by exact line) reads)
  · have edge : exec (.wordClockEdge ⟨reads, stopped⟩) s = .next (wordClockEdge reads { s with mclkStopped := stopped }) := by
      show Host.Outcome.next (wordClockEdge reads { settle s with mclkStopped := stopped }) = _
      rw [settle_held line]
    rw [edge]
    refine ⟨fun state => ?_, fun state => ?_, fun state => ?_⟩
    · simp only [wordClockEdge, state]
    · rw [wordClockEdge_following reads (by exact state)]
      cases stopped
      · exact congrArg _ (houseSample_held (by exact line) reads)
      · rfl
    · simp [wordClockEdge, state, Clock.edgeInHoldover, line]

/-! ## O12 -/

/-- A block event that falls in STARTING: the clock's return and the MUTE line, then the scrub and the releases (R12). -/
theorem blockEvent_starting {s : State} (mute cuesFirst : Bool) (line : s.resetLine = false) (due : s.blockDue = true)
    (starting : s.clock.phase = .starting) (quiet : s.sel.over = false) :
    blockEvent mute cuesFirst s =
      removeReleased (scrubStep (sampleMute (clockReturn { s with blockDue := false, mutePin := mute }))) := by
  have still : caughtUp s = s := by rw [caughtUp, if_neg (by simp [quiet])]
  have phase : (sampleMute (clockReturn { s with blockDue := false, mutePin := mute })).starting = true := by
    show (clockReturn { s with blockDue := false, mutePin := mute }).starting = true
    unfold clockReturn
    split <;> simp [State.starting, raise, Clock.returned, starting]
  rw [blockEvent, if_pos (by simp [line, due]), still, blockWork]
  exact if_pos phase

/-- The clock's return and the MUTE line move nothing else (R6, R143). -/
theorem sampleMute_clockReturn (s : State) :
    ∃ (c : Clock) (u : Notices) (last accepted : Bool),
      sampleMute (clockReturn s) = { s with clock := c, notices := u, muteLast := last, muteAccepted := accepted } ∧
        c.scrubPage = s.clock.scrubPage ∧ c.counter = s.clock.counter ∧ c.phase = s.clock.phase := by
  unfold clockReturn
  split
  · exact ⟨_, _, _, _, rfl, rfl, rfl, rfl⟩
  · exact ⟨_, _, _, _, rfl, rfl, rfl, rfl⟩

/-- Settles O12. -/
theorem scrubAndStartup : Obligations.ScrubAndStartup := by
  refine ⟨fun s mute cuesFirst line due starting quiet => ⟨blockEvent mute cuesFirst s, rfl, ?_⟩,
    fun s line starting done => ?_, fun s early => ?_, fun s mute cuesFirst undue => ?_⟩
  · obtain ⟨c, u, last, accepted, e, page, counter, phase⟩ :=
      sampleMute_clockReturn { s with blockDue := false, mutePin := mute }
    have page : c.scrubPage = s.clock.scrubPage := page
    have counter : c.counter = s.clock.counter := counter
    have phase : c.phase = .starting := phase.trans starting
    rw [blockEvent_starting mute cuesFirst line due starting quiet, e]
    by_cases left : s.clock.scrubPage < 1024
    · rw [scrubStep, if_pos (page.trans_lt left)]
      refine ⟨rfl, fun _ => ⟨congrArg (· + 1) page, fun a => ?_⟩, fun done => absurd left (Nat.not_lt.mpr done), counter, phase,
        rfl, rfl⟩
      exact page ▸ Memory.read_scrub s.mem c.scrubPage a
    · rw [scrubStep, if_neg (page ▸ left)]
      exact ⟨rfl, fun c => absurd c left, fun _ => ⟨page, rfl⟩, counter, phase, rfl, rfl⟩
  · exact congrArg _ (if_pos (by simp [line, State.starting, starting, done]))
  · refine congrArg _ (if_neg ?_)
    obtain running | early := early
    · simp [State.starting, running]
    · simp [early]
  · exact congrArg _ (if_neg (by simp [undue]))


end Sys2Proof.Machine
end

section
/-!
O11, O13: the block event's own work, CLOCKSET, and the way of a system command to its owner.
-/

namespace Sys2Proof.Machine

open Sys2Proof

/-! ## A notice that stands (R181) -/

/-- The record of a kind in a role's queue gives a detail and a time. -/
def Notices.Shows (u : Notices) (r : Role) (k : Kind) (d : List Byte) (time : BitVec 32) : Prop :=
  ∃ v ∈ u.queues.get r, v.kind = k ∧ v.detail = d ∧ v.time = time

/-- A notice taken is shown by its kind's record, made or updated (R181). -/
theorem takeNotice_shows (k : Kind) (d : List Byte) (time : BitVec 32) (q : List Notice) :
    ∃ v ∈ takeNotice k d time q, v.kind = k ∧ v.detail = d ∧ v.time = time := by
  induction q with
  | nil => exact ⟨_, List.mem_singleton_self _, rfl, rfl, rfl⟩
  | cons w q ih =>
    rw [takeNotice]
    split
    next same => exact ⟨_, List.mem_cons_self, same, rfl, rfl⟩
    · split
      · exact ⟨_, List.mem_cons_self, rfl, rfl, rfl⟩
      · obtain ⟨v, hv, shown⟩ := ih
        exact ⟨v, List.mem_cons_of_mem _ hv, shown⟩

theorem Notices.route_shows {u : Notices} {r : Role} {k : Kind} (goes : u.routing.getD (k.code - 1) none = some r)
    (d : List Byte) (time : BitVec 32) : (u.route k d time).Shows r k d time := by
  rw [Notices.route, goes]
  show ∃ v ∈ (u.queues.set r _).get r, _
  rw [PerRole.get_set_self]
  exact takeNotice_shows ..

/-- A notice of another kind leaves the record as it is (R181). -/
theorem Notices.Shows.route {u : Notices} {r : Role} {k m : Kind} {d : List Byte} {time : BitVec 32}
    (h : u.Shows r k d time) (other : m ≠ k) (e : List Byte) (late : BitVec 32) : (u.route m e late).Shows r k d time := by
  obtain ⟨v, hv, kind, detail, stamp⟩ := h
  refine ⟨v, ?_, kind, detail, stamp⟩
  unfold Notices.route
  split
  next q _ =>
    show v ∈ (u.queues.set q _).get r
    rw [PerRole.get_set]
    split
    next e =>
      subst e
      exact (takeNotice_other (kind ▸ other.symm)).mpr hv
    · exact hv
  · exact hv

theorem Notices.Shows.raise {s : State} {r : Role} {k m : Kind} {d : List Byte} {time : BitVec 32}
    (h : s.notices.Shows r k d time) (other : m ≠ k) (e : List Byte) : (raise m e s).notices.Shows r k d time := by
  show (if s.resetLine then s.notices else s.notices.route m e s.houseTime).Shows r k d time
  split
  · exact h
  · exact h.route other e _

theorem raise_shows {s : State} (line : s.resetLine = false) {r : Role} {k : Kind}
    (goes : s.notices.routing.getD (k.code - 1) none = some r) (d : List Byte) :
    (raise k d s).notices.Shows r k d s.houseTime := by
  show (if s.resetLine then s.notices else s.notices.route k d s.houseTime).Shows r k d s.houseTime
  rw [line]
  exact Notices.route_shows goes d _

/-! ## Which notices a block event raises after the MUTE line's (R9) -/

section Raises

variable {P : Notices → Prop} (hP : ∀ u k d t, k ≠ .clock → k ≠ .mute → P u → P (Notices.route u k d t)) {s : State}
  (h : P s.notices)
include hP h

theorem raise_other {k : Kind} (clock : k ≠ .clock) (mute : k ≠ .mute) (d : List Byte) : P (raise k d s).notices := by
  show P (if s.resetLine then s.notices else s.notices.route k d s.houseTime)
  split
  · exact h
  · exact hP _ _ _ _ clock mute h

theorem raiseIf_other {k : Kind} (clock : k ≠ .clock) (mute : k ≠ .mute) (c : Bool) (d : List Byte) :
    P (raiseIf c k d s).notices := by
  rw [raiseIf_eq]
  split
  · exact raise_other hP h clock mute d
  · exact h

theorem servoStep_other : P (servoStep s).notices := by
  unfold servoStep
  split
  · exact h
  next x _ =>
    dsimp only
    split
    · exact raiseIf_other hP (s := s.setFeed x _) h (by decide) (by decide) _ _
    · exact h

theorem judgeAlignment_other : P (judgeAlignment s).notices := by
  unfold judgeAlignment
  split
  · split
    · exact h
    · exact raiseIf_other hP (s := State.onSel s _) h (by decide) (by decide) _ _
  · exact h

theorem fireCue_other (c : Cue) : P (fireCue c s).notices := by
  have act : P (cueAct c s).2.notices := by
    unfold cueAct
    split
    · show P (takeBank s).2.2.notices
      unfold takeBank
      split
      · exact raiseIf_other hP (s := { s with scene := _ }) h (by decide) (by decide) _ _
      · exact h
    · show P (groupStep _ _ s).2.notices
      unfold groupStep
      split <;> exact h
    · show P (groupStep _ _ s).2.notices
      unfold groupStep
      split <;> exact h
    · exact onairSteps_keeps h _
    · exact h
  exact raiseIf_other hP act (by decide) (by decide) _ _

theorem cuePass_other : P (cuePass s).notices :=
  foldl_keeps (P := fun u => P u.notices) (fun _ c hu => fireCue_other hP hu c) _ (s := { s with cues := _ }) h

theorem runningBlock_other (cuesFirst : Bool) : P (runningBlock cuesFirst s).notices := by
  have judged {u : State} (hu : P u.notices) : P (selectorJudgements u).notices :=
    takePrimed_keeps (judgeAlignment_other hP hu)
  have served := servoStep_other hP (s := (s.onFeed .a Feed.clearUnderrun).onFeed .b Feed.clearUnderrun) h
  unfold runningBlock
  dsimp only
  split
  · exact judged (cuePass_other hP served)
  · exact cuePass_other hP (judged served)

end Raises

/-! ## The block event (R9) -/

/-- What follows the MUTE line's sample (R9, R12). -/
def afterMute (cuesFirst : Bool) (t : State) : State :=
  if t.starting then removeReleased (scrubStep t) else runningBlock cuesFirst t

/-- The state in which a block event's work begins (R9, R143). -/
def State.fallen (s : State) (mute : Bool) : State := { caughtUp s with blockDue := false, mutePin := mute }

theorem State.fallen_clock (s : State) (mute : Bool) : (s.fallen mute).clock = s.clock := caughtUp_clock s

theorem State.fallen_routing (s : State) (mute : Bool) : (s.fallen mute).notices.routing = s.notices.routing :=
  caughtUp_routing s

/-- The mutes as a block event finds them. -/
theorem State.fallen_mutes (s : State) (mute : Bool) :
    (s.fallen mute).mutePin = mute ∧ (s.fallen mute).muteLast = s.muteLast ∧
      (s.fallen mute).muteAccepted = s.muteAccepted ∧ (s.fallen mute).gcMute = s.gcMute :=
  ⟨rfl, caughtUp_muteLast s, caughtUp_muteAccepted s, caughtUp_gcMute s⟩

theorem exec_blockEvent_due {s : State} (line : s.resetLine = false) (due : s.blockDue = true) (mute cuesFirst : Bool) :
    exec (.blockEvent mute cuesFirst) s =
      .next (afterMute cuesFirst (sampleMute (clockReturn (s.fallen mute)))) :=
  congrArg Host.Outcome.next (if_pos (by simp [line, due]))

/-- The rest of a block event moves nothing of the clock but the scrub page, and nothing of the house mute (R12, R143). -/
theorem afterMute_keeps {β : Type} (view : State → β) (cuesFirst : Bool) (t : State)
    (blank : ∀ u : State, view u.shell = view u)
    (scrubbed : ∀ (u : State) (m : Memory) (page : Nat),
      view { u with mem := m, clock := { u.clock with scrubPage := page } } = view u)
    (released : ∀ u : State, view (removeReleased u) = view u) : view (afterMute cuesFirst t) = view t := by
  unfold afterMute
  split
  · rw [released]
    unfold scrubStep
    split
    · exact scrubbed ..
    · rfl
  · rw [← blank, runningBlock_shell, blank]

theorem afterMute_other {P : Notices → Prop}
    (hP : ∀ u k d t, k ≠ .clock → k ≠ .mute → P u → P (Notices.route u k d t)) {t : State} (h : P t.notices)
    (cuesFirst : Bool) : P (afterMute cuesFirst t).notices := by
  unfold afterMute
  split
  · unfold scrubStep
    split <;> exact h
  · exact runningBlock_other hP h cuesFirst

/-- The return to word clock in (R6). -/
theorem clockReturn_cases (s : State) :
    (s.clock.state = .holdover ∧ s.clock.good = 2 → clockReturn s = raise .clock [1, 0, 0, 0]
      { s with clock := { s.clock with state := .following, watch := .idle, good := 0, lossMeasure := 0 } }) ∧
    (¬ (s.clock.state = .holdover ∧ s.clock.good = 2) → clockReturn s = s) := by
  unfold clockReturn
  refine ⟨fun due => ?_, fun undue => ?_⟩
  · rw [if_pos (by simp [Clock.returnDue, due])]
    rfl
  · rw [if_neg (by simpa [Clock.returnDue] using undue)]

/-- The MUTE line's sample: a level found twice is accepted, and MUTE is raised where that changes the house mute
(R143, R144). -/
theorem sampleMute_eq (s : State) : sampleMute s =
    raiseIf (decide (s.mutePin = s.muteLast ∧ s.mutePin ≠ s.muteAccepted ∧ s.gcMute = false)) .mute
      [if s.mutePin then 1 else 0, 1, 0, if s.mutePin then 1 else 0]
      { s with muteLast := s.mutePin, muteAccepted := if s.mutePin = s.muteLast then s.mutePin else s.muteAccepted } := by
  unfold sampleMute judgeHouseMute State.houseMute
  generalize s.mutePin = pin
  generalize s.muteLast = last
  cases pin <;> cases last <;> cases accepted : s.muteAccepted <;> cases call : s.gcMute <;> rfl

/-- The clock's return leaves the mutes, the routing and the house time (R6). -/
theorem clockReturn_rest (s : State) :
    (clockReturn s).mutePin = s.mutePin ∧ (clockReturn s).muteLast = s.muteLast ∧
      (clockReturn s).muteAccepted = s.muteAccepted ∧ (clockReturn s).gcMute = s.gcMute ∧
      (clockReturn s).notices.routing = s.notices.routing ∧ (clockReturn s).resetLine = s.resetLine := by
  unfold clockReturn
  split
  · exact ⟨rfl, rfl, rfl, rfl, raise_routing .., rfl⟩
  · exact ⟨rfl, rfl, rfl, rfl, rfl, rfl⟩

/-- The clock after a block event is the clock after its return (R6). -/
theorem blockEvent_clock {β : Type} (view : Clock → β) (page : ∀ c n, view { c with scrubPage := n } = view c)
    (cuesFirst : Bool) (s : State) :
    view (afterMute cuesFirst (sampleMute (clockReturn s))).clock = view (clockReturn s).clock :=
  afterMute_keeps (fun u => view u.clock) cuesFirst (sampleMute (clockReturn s)) (fun _ => rfl) (fun _ _ n => page _ n)
    fun _ => rfl

/-- The switch of R6 at a block event, and its notice. -/
theorem blockEvent_returns {s : State} (line : s.resetLine = false) (mute cuesFirst : Bool) :
    let t := afterMute cuesFirst (sampleMute (clockReturn (s.fallen mute)))
    ((s.clock.state = .holdover ∧ s.clock.good = 2) →
      t.clock.state = .following ∧ t.clock.good = 0 ∧ t.clock.watch = .idle ∧ t.clock.lossMeasure = 0 ∧
        ∀ r, s.notices.routing.getD 13 none = some r →
          t.notices.Shows r .clock [1, 0, 0, 0] (s.clock.counter.setWidth 32)) ∧
    (¬ (s.clock.state = .holdover ∧ s.clock.good = 2) →
      t.clock.state = s.clock.state ∧ t.clock.good = s.clock.good ∧ t.clock.watch = s.clock.watch ∧
        t.clock.lossMeasure = s.clock.lossMeasure) := by
  intro t
  have clock := blockEvent_clock (fun c => (c.state, c.good, c.watch, c.lossMeasure)) (fun _ _ => rfl) cuesFirst
    (s.fallen mute)
  simp only [Prod.mk.injEq] at clock
  obtain ⟨state, good, watch, measure⟩ := clock
  obtain ⟨returns, stays⟩ := clockReturn_cases (s.fallen mute)
  rw [s.fallen_clock] at returns stays
  refine ⟨fun switch => ?_, fun none => ?_⟩
  · have back := returns switch
    refine ⟨state.trans (by rw [back]; rfl), good.trans (by rw [back]; rfl), watch.trans (by rw [back]; rfl),
      measure.trans (by rw [back]; rfl), fun r goes => ?_⟩
    have shown : (clockReturn (s.fallen mute)).notices.Shows r .clock [1, 0, 0, 0] (s.clock.counter.setWidth 32) := by
      rw [back]
      refine raise_shows ?_ ?_ _
      · exact (caughtUp_resetLine s).trans line
      · exact (congrArg (List.getD · 13 none) (s.fallen_routing mute)).trans goes
    refine afterMute_other (P := fun u => u.Shows r .clock [1, 0, 0, 0] (s.clock.counter.setWidth 32))
      (fun u k d t clock _ h => h.route clock d t) ?_ cuesFirst
    rw [sampleMute_eq, raiseIf_eq]
    split
    · exact Notices.Shows.raise (s := { clockReturn (s.fallen mute) with muteLast := _, muteAccepted := _ }) shown
        (by decide) _
    · exact shown
  · have same := congrArg State.clock (stays none)
    rw [s.fallen_clock] at same
    exact ⟨state.trans (by rw [same]), good.trans (by rw [same]), watch.trans (by rw [same]), measure.trans (by rw [same])⟩

/-- Settles O13: the rest of a block event raises no CLOCK and no MUTE, and keeps the clock's state and the house mute. -/
theorem blockEventSamples : Obligations.BlockEventSamples := by
  refine ⟨fun s mute cuesFirst line due => ⟨_, exec_blockEvent_due line due mute cuesFirst,
      blockEvent_returns line mute cuesFirst⟩,
    fun s level cuesFirst line due => ⟨_, exec_blockEvent_due line due level cuesFirst, ?_⟩,
    fun s a b c v mute cuesFirst released line due running quiet hr ha hb hc hv => ?_⟩
  · have kept := afterMute_keeps (fun u => (u.muteLast, u.mutePin, u.muteAccepted, u.gcMute)) cuesFirst
      (sampleMute (clockReturn (s.fallen level))) (fun _ => rfl) (fun _ _ _ => rfl) fun _ => rfl
    simp only [Prod.mk.injEq] at kept
    obtain ⟨last, pin, accepted, call⟩ := kept
    obtain ⟨pinR, lastR, acceptedR, callR, routingR, lineR⟩ := clockReturn_rest (s.fallen level)
    obtain ⟨pinF, lastF, acceptedF, callF⟩ := s.fallen_mutes level
    rw [pinF] at pinR
    rw [lastF] at lastR
    rw [acceptedF] at acceptedR
    rw [callF] at callR
    have sampled := sampleMute_eq (clockReturn (s.fallen level))
    rw [pinR, lastR, acceptedR, callR] at sampled
    refine ⟨last.trans pinR, pin.trans pinR, ?_, call.trans callR, fun r goes found changes free => ?_⟩
    · rw [accepted, sampled]
      rfl
    · refine afterMute_other (P := fun u => ∃ v ∈ u.queues.get r, v.kind = .mute ∧
          v.detail = [if level then 1 else 0, 1, 0, if level then 1 else 0]) (fun u k d t _ mute shown => ?_) ?_ cuesFirst
      · obtain ⟨v, hv, kind, detail⟩ := shown
        obtain ⟨w, hw, kindW, detailW, -⟩ := Notices.Shows.route ⟨v, hv, kind, detail, rfl⟩ mute d t
        exact ⟨w, hw, kindW, detailW⟩
      · rw [sampled, raiseIf_eq, if_pos (by simp [found, found ▸ changes, free])]
        obtain ⟨v, hv, kind, detail, -⟩ := raise_shows (k := .mute) (r := r)
          (s := { clockReturn (s.fallen level) with
            gcMute := s.gcMute, muteLast := level, mutePin := level
            muteAccepted := if level = s.muteLast then level else s.muteAccepted })
          (lineR.trans ((caughtUp_resetLine s).trans line))
          ((congrArg (List.getD · 14 none) (routingR.trans (s.fallen_routing level))).trans goes)
          [if level then 1 else 0, 1, 0, if level then 1 else 0]
        exact ⟨v, hv, kind, detail⟩
  · have still : caughtUp s = s := by rw [caughtUp, if_neg (by simp [quiet])]
    have fallen : s.fallen mute = a := by rw [State.fallen, still, ha]
    have clock : a.clock = s.clock := by rw [ha]
    obtain ⟨returns, stays⟩ := clockReturn_cases a
    have returned : clockReturn a = b := by
      rw [hb]
      split
      next switch => rw [returns (clock ▸ switch), clock]
      next none => exact stays (clock ▸ none)
    have sampled : sampleMute b = c := by
      obtain ⟨pin, last, accepted, call, -, -⟩ := clockReturn_rest a
      have pinA : a.mutePin = mute := by rw [ha]
      have lastA : a.muteLast = s.muteLast := by rw [ha]
      have acceptedA : a.muteAccepted = s.muteAccepted := by rw [ha]
      have callA : a.gcMute = s.gcMute := by rw [ha]
      rw [returned] at pin last accepted call
      rw [hc, sampleMute_eq, pin, last, accepted, call, pinA, lastA, acceptedA, callA]
    have phase : c.starting = false := by
      have kept : b.clock.phase = s.clock.phase := by
        rw [hb]
        split
        · rfl
        · rw [clock]
      have phase : c.clock.phase = .running := by
        rw [hc]
        exact kept.trans running
      simp [State.starting, phase]
    have work : afterMute cuesFirst c = runningBlock cuesFirst c := if_neg (by simp [phase])
    have releases (u : State) : removeReleased u = released u := (hr u).symm
    rw [exec_blockEvent_due line due, fallen, returned, sampled, work]
    simp only [runningBlock, selectorJudgements, releases, hv]
    rfl

/-! ## A system command's way to its owner and back (R170, R171) -/

/-- A command of the system controller, in order and served, reaches its owner (R170). -/
theorem exec_system_served {i : Instr} {code : Byte} {addr : BitVec 7} {p : List Byte} {s : State}
    (hi : i.frame = some (code, addr, p)) (hs : s.Serves addr .system) (hc : 0x40 ≤ code.toNat ∧ code.toNat ≤ 0x49)
    (hp : p.length ≤ 250) (hl : goodLength code.toNat p.length = true) :
    exec i s = .next (Instr.owner i .system (handedOver .system code s)) := by
  refine exec_served hi hs hp (judge_none hp ?_ ?_ ?_) hl
  · simp [knownCode, hc]
  · simp [mayIssue, hc]
  · simp only [isFeedCode, Bool.and_eq_false_iff, decide_eq_false_iff_not]
    omega

/-- A state whose interface alone says that a role's command is with its owner. -/
def State.executes (u : State) (r : Role) (code : Byte) : State := { u with bus := u.bus.handedOver r code }

/-- The owner completes the command that it holds, whatever else it changed (R171). -/
theorem complete_executes (u : State) (r : Role) (code : Byte) (res : ResultCode) (d : List Byte) :
    complete r res d (u.executes r code) = u.answered r code res d := complete_of_bus rfl res d

/-- Nothing is caught up on outside a transition (R89). -/
theorem caughtUp_of_rest {s : State} (h : s.sel.state.inTransition = false) : caughtUp s = s := by
  rw [caughtUp, if_neg (by simp [Selector.over, h])]

theorem caughtUp_of_quiet {s : State} (h : s.sel.over = false) : caughtUp s = s := by
  rw [caughtUp, if_neg (by simp [h])]

/-! ## O11 -/

theorem sourceOf_of_le {n : Nat} (h : n ≤ 1) : sourceOf n = some (if n = 0 then .internal else .external) := by
  obtain rfl | rfl := Nat.le_one_iff_eq_zero_or_eq_one.mp h <;> rfl

theorem sourceOf_of_gt {n : Nat} (h : 1 < n) : sourceOf n = none := by
  match n, h with
  | k + 2, _ => rfl

theorem rateOf_of_le {n : Nat} (h : n ≤ 1) : ∃ house : Rate, rateOf n = some house ∧ house.code = n := by
  obtain rfl | rfl := Nat.le_one_iff_eq_zero_or_eq_one.mp h
  · exact ⟨.k48, rfl, rfl⟩
  · exact ⟨.k96, rfl, rfl⟩

theorem rateOf_of_gt {n : Nat} (h : 1 < n) : rateOf n = none := by
  match n, h with
  | k + 2, _ => rfl

theorem Rate.code_injective {a b : Rate} (h : a.code = b.code) : a = b := by
  cases a <;> cases b <;> first | rfl | exact absurd h (by decide)

theorem rateOf_code_byte (house : Rate) : rateOf (BitVec.ofNat 8 house.code).toNat = some house := by
  cases house <;> rfl

section Clockset

variable {s : State} {source house n : Byte} {r : Role}

theorem clockset_locked (lock : s.bus.lock = true) : clockset [source, house, n] r s = complete r .locked [] s :=
  if_pos lock

theorem clockset_range (free : s.bus.lock = false) (bad : 1 < source.toNat ∨ 1 < house.toNat ∨ n.toNat < 31) :
    clockset [source, house, n] r s = complete r .range [] s := by
  have fields : u8 [source, house, n] 0 = source.toNat ∧ u8 [source, house, n] 1 = house.toNat ∧
      u8 [source, house, n] 2 = n.toNat := ⟨rfl, rfl, rfl⟩
  rw [clockset, if_neg (by simp [free]), fields.1, fields.2.1, fields.2.2]
  by_cases badSource : 1 < source.toNat
  · rw [sourceOf_of_gt badSource]
  · by_cases badHouse : 1 < house.toNat
    · rw [rateOf_of_gt badHouse]
      split
      · contradiction
      · rfl
    · have short : n.toNat < 31 := by omega
      obtain ⟨k, rate, -⟩ := rateOf_of_le (Nat.not_lt.mp badHouse)
      rw [sourceOf_of_le (Nat.not_lt.mp badSource), rate]
      exact if_pos short

/-- A CLOCKSET whose fields have a meaning, by the class that it names (R11, check 3). -/
theorem clockset_fields {rate : Rate} (free : s.bus.lock = false) (hs : source.toNat ≤ 1)
    (hr : rateOf house.toNat = some rate) (hn : 31 ≤ n.toNat) : clockset [source, house, n] r s =
      if rate ≠ s.clock.rateClass ∧ s.classFree = false then complete r .busy [] s
      else clockTaken (if source.toNat = 0 then .internal else .external) rate n.toNat r s := by
  have fields : u8 [source, house, n] 0 = source.toNat ∧ u8 [source, house, n] 1 = house.toNat ∧
      u8 [source, house, n] 2 = n.toNat := ⟨rfl, rfl, rfl⟩
  rw [clockset, if_neg (by simp [free]), fields.1, fields.2.1, fields.2.2, sourceOf_of_le hs, hr]
  exact if_neg (Nat.not_lt.mpr hn)

end Clockset

theorem State.classFree_iff (s : State) : s.classFree = true ↔
    s.scene.active = [] ∧ s.scene.state = .free ∧ s.feedA.inPlay = false ∧ s.feedB.inPlay = false := by
  simp [State.classFree, Feed.atRest, and_assoc]

/-- The clock unit with a source byte, class and N taken (R11). -/
theorem Clock.set_byte (c : Clock) (source : Byte) (house : Rate) (n : Nat) :
    c.set (if source.toNat = 0 then .internal else .external) house n =
      if source = 0 then
        { c with source := .internal, rateClass := house, n := n, state := .internal, watch := .idle, good := 0 }
      else if c.source = .internal then
        { c with source := .external, rateClass := house, n := n, state := .holdover, watch := .idle, good := 0 }
      else { c with rateClass := house, n := n } := by
  have zero : source.toNat = 0 ↔ source = 0 := ⟨fun e => BitVec.eq_of_toNat_eq e, fun e => by rw [e]; rfl⟩
  by_cases e : source = 0
  · rw [if_pos (zero.mpr e), if_pos e]
    cases c.source <;> rfl
  · rw [if_neg fun k => e (zero.mp k), if_neg e]
    cases k : c.source
    · simp [Clock.set, k]
    · simp [Clock.set, k]

/-- A feed under a new class that its setup allows (R11, R67). -/
theorem Feed.reclassed_kept {f : Feed} {house : Rate} (h : f.setup.passes house = true) (pages : Nat) :
    f.reclassed house pages = { feed := f.rederive house, replaced := false, dropped := false } := if_pos h

theorem Feed.reclassed_fallen {f : Feed} {house : Rate} (h : f.setup.passes house = false) (pages : Nat) :
    f.reclassed house pages = f.fallBack house pages := if_neg (by simp [h])

/-- The default setup needs 32 pages (R38). -/
theorem defaultSetup_fits (house : Rate) (pages : Nat) : (defaultSetup house).fits pages = decide (32 ≤ pages) := by
  rw [Bool.eq_iff_iff, decide_eq_true_eq]
  show decide (2 ^ 11 * 16 ≤ pages * 1024) = true ↔ 32 ≤ pages
  rw [decide_eq_true_eq]
  omega

theorem Feed.reclassed_replaced (f : Feed) (house : Rate) (pages : Nat) :
    (f.reclassed house pages).replaced = !f.setup.passes house := by
  unfold Feed.reclassed
  split
  next h => simp [h]
  next h => simp [h, Feed.fallBack]

theorem Feed.reclassed_dropped (f : Feed) (house : Rate) (pages : Nat) :
    (f.reclassed house pages).dropped =
      (!f.setup.passes house && f.pendingPlay.isSome && decide (pages < 32)) := by
  unfold Feed.reclassed
  split
  next h => simp [h]
  next h => simp [h, Feed.fallBack, defaultSetup_fits, ← decide_not]

/-- What a new class leaves of a feed (R11). -/
theorem Feed.reclassed_feed (f : Feed) (house : Rate) (pages : Nat) :
    (f.setup.passes house = true →
      (f.reclassed house pages).feed = { f with
        rs := { f.rs with
          rNom := f.setup.nominal house, r := f.setup.nominal house, acc := 0, servoErr := 0, clamped := false } }) ∧
    (f.setup.passes house = false →
      let g := (f.reclassed house pages).feed
      g.setup = { mode := .streaming, rate := house, speed := .one, n := 16, lanes := 1, dExp := 11, wExp := 3 } ∧
      g.rs.rNom = 268435456 ∧ g.rs.r = 268435456 ∧ g.rs.acc = (0 : Int) ∧ g.h = 0 ∧ g.s0 = 0 ∧ g.last0 = none ∧
      g.last1 = none ∧ g.st = f.st ∧ g.completion = f.completion ∧
      g.pendingPlay = if 32 ≤ pages then f.pendingPlay else none) := by
  have nominal : (defaultSetup house).nominal house = 268435456 := by cases house <;> decide
  refine ⟨fun h => by rw [Feed.reclassed_kept h]; rfl, fun h => ?_⟩
  rw [Feed.reclassed_fallen h]
  refine ⟨rfl, nominal, nominal, rfl, rfl, rfl, rfl, rfl, rfl, rfl, ?_⟩
  show (if (defaultSetup house).fits pages then f.pendingPlay else none) = _
  simp [defaultSetup_fits]

theorem bitsByte_four (a b c d : Bool) :
    (bitsByte [a, b, c, d]).getLsbD 0 = a ∧ (bitsByte [a, b, c, d]).getLsbD 1 = b ∧
      (bitsByte [a, b, c, d]).getLsbD 2 = c ∧ (bitsByte [a, b, c, d]).getLsbD 3 = d := by
  cases a <;> cases b <;> cases c <;> cases d <;> decide

/-- Settles O11. -/
theorem clockset_holds : Obligations.Clockset := by
  have reach {s : State} {addr : BitVec 7} (hs : s.Serves addr .system) (source house n : Byte) :
      exec (.clockset addr [source, house, n]) s =
        .next (clockset [source, house, n] .system ((caughtUp s).executes .system 0x40)) :=
    exec_system_served (i := .clockset addr [source, house, n]) rfl hs (by decide) (by simp) rfl
  have lockOf (s : State) : ((caughtUp s).executes .system 0x40).bus.lock = s.bus.lock := by
    show (caughtUp s).bus.lock = _
    rw [caughtUp_bus]
  have houseOf (s : State) : ((caughtUp s).executes .system 0x40).clock = s.clock := caughtUp_clock s
  refine ⟨fun s addr source house n hs => ⟨fun lock => ?_, fun free bad => ?_, fun free hsrc hh hn new busy => ?_,
    fun free hsrc hn same => ?_⟩, fun s addr source n house hs free hsrc hn new active pend rest restA restB => ?_⟩
  · rw [reach hs, clockset_locked ((lockOf s).trans lock), complete_executes]
  · rw [reach hs, clockset_range ((lockOf s).trans free) bad, complete_executes]
  · obtain ⟨rate, hr, code⟩ := rateOf_of_le hh
    have other : rate ≠ s.clock.rateClass := fun e => new (code ▸ e ▸ rfl)
    have taken : ((caughtUp s).executes .system 0x40).classFree = false := by
      rw [← Bool.not_eq_true, State.classFree_iff]
      rintro ⟨active, pend, restA, restB⟩
      have active : s.scene.active = [] := by rw [← caughtUp_scene s]; exact active
      have pend : s.scene.state = .free := by rw [← caughtUp_scene s]; exact pend
      have restA : (caughtUp s).feedA.inPlay = false := restA
      have restB : (caughtUp s).feedB.inPlay = false := restB
      simp [active, pend, restA, restB] at busy
    rw [reach hs, clockset_fields ((lockOf s).trans free) hsrc hr hn, houseOf, if_pos ⟨other, taken⟩, complete_executes]
  · have small : house.toNat ≤ 1 := by cases h : s.clock.rateClass <;> simp [h, Rate.code] at same <;> omega
    obtain ⟨rate, hr, code⟩ := rateOf_of_le small
    obtain rfl : rate = s.clock.rateClass := Rate.code_injective (code.trans same)
    rw [reach hs, clockset_fields ((lockOf s).trans free) hsrc hr hn, houseOf, if_neg (by simp)]
    have unchanged (x : Side) : ((caughtUp s).executes .system 0x40).clockFeed x s.clock.rateClass =
        { feed := (caughtUp s).feed x, replaced := false, dropped := false } := by
      rw [State.clockFeed, houseOf, if_pos rfl]
      cases x <;> rfl
    simp only [clockTaken, unchanged, houseOf, Clock.set_byte]
    exact congrArg _ (complete_executes { caughtUp s with clock := _ } ..)
  · have still : caughtUp s = s := caughtUp_of_rest rest
    have classFree : (s.executes .system 0x40).classFree = true := (State.classFree_iff _).mpr ⟨active, pend, restA, restB⟩
    have changed (x : Side) : (s.executes .system 0x40).clockFeed x house = (s.feed x).reclassed house (s.pages x) := by
      refine (if_neg new).trans ?_
      cases x <;> rfl
    have run := reach hs source (BitVec.ofNat 8 house.code) n
    rw [still, clockset_fields (s := s.executes .system 0x40) free hsrc (rateOf_code_byte house) hn,
      if_neg fun busy => Bool.false_ne_true (busy.2.symm.trans classFree), clockTaken] at run
    simp only [changed] at run
    refine ⟨{ s with
      clock := s.clock.set (if source.toNat = 0 then .internal else .external) house n.toNat
      feedA := (s.feedA.reclassed house s.pagesA).feed, feedB := (s.feedB.reclassed house s.pagesB).feed }, _, _,
      run.trans (congrArg _ (complete_executes { s with clock := _, feedA := _, feedB := _ } .system 0x40 ..)), rfl, Clock.set_byte .., fun x => ?_, ?_, ?_⟩
    · cases x
      · exact s.feedA.reclassed_feed house s.pagesA
      · exact s.feedB.reclassed_feed house s.pagesB
    · simp only [Feed.reclassed_replaced, State.feed_a, State.feed_b]
      cases s.feedA.setup.passes house <;> cases s.feedB.setup.passes house <;> rfl
    · obtain ⟨b0, b1, b2, b3⟩ := bitsByte_four (s.feedA.reclassed house s.pagesA).replaced
        (s.feedB.reclassed house s.pagesB).replaced (s.feedA.reclassed house s.pagesA).dropped
        (s.feedB.reclassed house s.pagesB).dropped
      exact ⟨b0.trans (Feed.reclassed_replaced ..), b1.trans (Feed.reclassed_replaced ..),
        b2.trans (Feed.reclassed_dropped ..), b3.trans (Feed.reclassed_dropped ..)⟩

end Sys2Proof.Machine
end

section
/-!
O5 to O8: the interface's judgement of a frame, and what the part puts on the bus.
-/

namespace Sys2Proof.Machine

open Sys2Proof

/-! ## The judgement of a frame (R165 to R170) -/

/-- The four addresses under each strap (R165). -/
theorem roleAt_iff (strap : Bool) (addr : BitVec 7) (r : Role) :
    roleAt strap addr = some r ↔ addr.toNat = (if strap then 0x38 else 0x34) + r.code := by
  unfold roleAt
  dsimp only
  generalize (if strap then 0x38 else 0x34) = base
  generalize addr.toNat = a
  split
  · cases r <;> simp [Role.code] <;> omega
  · split
    · cases r <;> simp [Role.code] <;> omega
    · split
      · cases r <;> simp [Role.code] <;> omega
      · split
        · cases r <;> simp [Role.code] <;> omega
        · cases r <;> simp [Role.code] <;> omega

theorem roleAt_zero (strap : Bool) : roleAt strap 0 = none := by cases strap <;> rfl

/-- The codes of the table are known (R170, step 1). -/
theorem knownCode_of_frame {i : Instr} {code : Byte} {addr : BitVec 7} {p : List Byte}
    (h : i.frame = some (code, addr, p)) : knownCode code.toNat = true := by
  cases i <;> simp only [Instr.frame, Option.some.injEq, Prod.mk.injEq, reduceCtorEq] at h
  all_goals
    obtain ⟨rfl, -, -⟩ := h
    rfl

/-- The table of rights (R170, step 2). -/
theorem mayIssue_iff {c : Nat} (known : knownCode c = true) (r : Role) : mayIssue c r = true ↔ ¬ DeniedTo c r := by
  cases r <;> simp [mayIssue, DeniedTo, knownCode, isFeedCode] at known ⊢ <;> omega

theorem judge_denied {c : Nat} {r : Role} {p : List Byte} (hp : p.length ≤ 250) (known : knownCode c = true)
    (denied : DeniedTo c r) (starting : Bool) : judge c r p starting = some .denied := by
  have may : mayIssue c r = false := by
    rw [← Bool.not_eq_true, mayIssue_iff known]
    exact not_not_intro denied
  simp [judge, Nat.not_lt.mpr hp, known, may]

/-- Past the table of rights the feed field is judged (R170, step 3). -/
theorem judge_field_refused {c : Nat} {r : Role} {p : List Byte} {res : ResultCode} (hp : p.length ≤ 250)
    (known : knownCode c = true) (allowed : ¬ DeniedTo c r) (field : judgeFeedField c r p = some res)
    (starting : Bool) : judge c r p starting = some res := by
  have may : mayIssue c r = true := (mayIssue_iff known r).mpr allowed
  simp [judge, Nat.not_lt.mpr hp, known, may, field]

/-- Past the feed field the start-up phase is judged (R170, step 4). -/
theorem judge_field_passed {c : Nat} {r : Role} {p : List Byte} (hp : p.length ≤ 250) (known : knownCode c = true)
    (allowed : ¬ DeniedTo c r) (field : judgeFeedField c r p = none) (starting : Bool) :
    judge c r p starting = if starting && !(1 ≤ c && c ≤ 3) then some .busy else none := by
  have may : mayIssue c r = true := (mayIssue_iff known r).mpr allowed
  simp [judge, Nat.not_lt.mpr hp, known, may, field]

theorem isFeedCode_of {c : Nat} (least : 0x10 ≤ c) (most : c ≤ 0x14) : isFeedCode c = true := by
  simp [isFeedCode, least, most]

/-- A feed field that names a feed (R170, step 3). -/
theorem judgeFeedField_named {c : Nat} {r : Role} {b : Byte} {rest : List Byte} (feed : isFeedCode c = true)
    (hb : b.toNat ≤ 1) : judgeFeedField c r (b :: rest) =
      if c ≠ 0x14 ∧ (r = .feedA ∧ b = 1 ∨ r = .feedB ∧ b = 0) then some .denied else none := by
  have named : b = 0 ∨ b = 1 := by
    obtain e | e := Nat.le_one_iff_eq_zero_or_eq_one.mp hb
    · exact .inl (BitVec.eq_of_toNat_eq e)
    · exact .inr (BitVec.eq_of_toNat_eq e)
  rw [judgeFeedField, if_pos feed]
  obtain rfl | rfl := named <;> cases r <;> simp [sideOf, foreignFeed]

theorem judgeFeedField_range {c : Nat} {r : Role} {b : Byte} {rest : List Byte} (feed : isFeedCode c = true)
    (hb : 1 < b.toNat) : judgeFeedField c r (b :: rest) = some .range := by
  have none : sideOf b.toNat = none := by
    match b.toNat, hb with
    | k + 2, _ => rfl
  simp only [judgeFeedField, feed, if_true, none]

/-- A frame that the part hears and the interface refuses (R170, R171). -/
theorem exec_refused {i : Instr} {code : Byte} {addr : BitVec 7} {p : List Byte} {r : Role} {res : ResultCode} {s : State}
    (hi : i.frame = some (code, addr, p)) (hs : s.Hears addr r) (hj : judge code.toNat r p s.starting = some res) :
    exec i s = .next (s.answered r code res []) := by
  obtain ⟨owner, run⟩ := exec_takeFrame hi s
  rw [run, takeFrame_refused owner hs hj]
  rfl

/-- Settles O5. -/
theorem frameJudged : Obligations.FrameJudged := by
  refine ⟨⟨roleAt_iff, fun s i code addr p hi unheard => ?_⟩, fun s i code addr p r hi hs hp => ?_,
    fun s i code addr p r hi hs hj long => ?_⟩
  · obtain line | none | ⟨r, c, role, busy⟩ := unheard
    · exact exec_frame_held line hi
    · obtain ⟨owner, run⟩ := exec_takeFrame hi s
      rw [run]
      simp [takeFrame, none]
    · exact exec_executing hi role busy
  · have known := knownCode_of_frame hi
    have starts (h : s.clock.phase = .starting) : s.starting = true := by simp [State.starting, h]
    refine ⟨fun denied => exec_refused hi hs (judge_denied hp known denied _), fun allowed least most empty => ?_,
      fun b rest allowed least most hb => ⟨fun beyond => ?_, fun notStat foreign => ?_⟩,
      fun allowed least starting => ?_, fun b rest allowed least most hb small own starting => ?_⟩
    · refine exec_refused hi hs (judge_field_refused hp known allowed ?_ _)
      rw [empty, judgeFeedField, if_pos (isFeedCode_of least most)]
    · refine exec_refused hi hs (judge_field_refused hp known allowed ?_ _)
      rw [hb, judgeFeedField_range (isFeedCode_of least most) beyond]
    · have small : b.toNat ≤ 1 := by obtain ⟨-, rfl⟩ | ⟨-, rfl⟩ := foreign <;> decide
      refine exec_refused hi hs (judge_field_refused hp known allowed ?_ _)
      rw [hb, judgeFeedField_named (isFeedCode_of least most) small, if_pos ⟨notStat, foreign⟩]
    · have notFeed : isFeedCode code.toNat = false := by
        simp only [isFeedCode, Bool.and_eq_false_iff, decide_eq_false_iff_not]
        omega
      have field : judgeFeedField code.toNat r p = none := if_neg (by simp [notFeed])
      refine exec_refused hi hs ?_
      rw [judge_field_passed hp known allowed field]
      exact if_pos (by rw [starts starting]; simp; omega)
    · have field : judgeFeedField code.toNat r p = none := by
        rw [hb, judgeFeedField_named (isFeedCode_of least most) small, if_neg fun c => own c.1 c.2]
      refine exec_refused hi hs ?_
      rw [judge_field_passed hp known allowed field]
      exact if_pos (by rw [starts starting]; simp; omega)
  · have hp : p.length ≤ 250 := Nat.le_of_not_lt fun c => judge_long (Nat.not_le.mpr c) hj
    rw [exec_frame hi hp, takeFrame_handed _ hs hj, long, lengthChecked_false, complete_handedOver]

/-! ## O6 -/

theorem callAcks_length (bytes : List Byte) : (callAcks bytes).length = bytes.length := by
  cases bytes <;> simp [callAcks]

theorem callAcks_get {bytes : List Byte} {k : Nat} {b : Byte} (h : bytes[k]? = some b) :
    (callAcks bytes)[k]? = some (decide (k = 0 ∧ (b = 0x70 ∨ b = 0x71))) := by
  cases bytes with
  | nil => simp at h
  | cons c rest =>
    cases k with
    | zero =>
      obtain rfl : c = b := by simpa using h
      show some (c == 0x70 || c == 0x71) = _
      rw [Option.some.injEq, Bool.eq_iff_iff]
      simp
    | succ k =>
      have listed : rest[k]? = some b := by simpa using h
      have within : k < rest.length := (List.getElem?_eq_some_iff.mp listed).1
      simp [callAcks, within]

theorem frameAcks_length (bytes : List Byte) : (frameAcks bytes).length = bytes.length := by
  match bytes with
  | [] => rfl
  | [_] => rfl
  | _ :: _ :: p => simp [frameAcks]

theorem frameAcks_get (code len : Byte) (p : List Byte) :
    (frameAcks (code :: len :: p))[0]? = some true ∧
      (frameAcks (code :: len :: p))[1]? = some (decide (len.toNat ≤ 250)) ∧
      ∀ k, k < p.length → (frameAcks (code :: len :: p))[k + 2]? = some (decide (len.toNat ≤ 250 ∧ k < len.toNat)) := by
  refine ⟨rfl, rfl, fun k hk => ?_⟩
  simp [frameAcks, lengthTaken, hk]

/-- A bus command's frame, whole, is its command (log 32). -/
theorem execFrame_of_frame {i : Instr} {code : Byte} {addr : BitVec 7} {p : List Byte}
    (h : i.frame = some (code, addr, p)) : execFrame code addr p = exec i := by
  cases i <;> simp only [Instr.frame, Option.some.injEq, Prod.mk.injEq, reduceCtorEq] at h
  all_goals
    obtain ⟨rfl, rfl, rfl⟩ := h
    rfl

/-- A frame that ends short or overlong is answered FORMAT where the part hears it (R169). -/
theorem badFrame_heard {s : State} {addr : BitVec 7} {r : Role} (hs : s.Hears addr r) (code : Byte) :
    badFrame code addr s = s.answered r code .format [] := by
  obtain ⟨line, role, free⟩ := hs
  rw [badFrame, if_neg (by simp [line]), role]
  exact if_neg (by simp [free])

theorem exactPayload_iff (len : Byte) (p : List Byte) :
    exactPayload len p = true ↔ len.toNat ≤ 250 ∧ p.length = len.toNat := by simp [exactPayload, lengthTaken]

/-- Settles O6. -/
theorem frameFormat : Obligations.FrameFormat := by
  refine ⟨fun s addr bytes => ⟨fun unheard => ?_, fun line call => ?_, fun r hs => ?_⟩, fun s addr r hs => ?_⟩
  · unfold State.busAcks
    obtain line | ⟨other, none⟩ | ⟨r, role, busy⟩ := unheard
    · rw [if_pos line]
    · rw [if_neg other, none]
      exact ite_self _
    · have other : addr ≠ 0 := by
        rintro rfl
        rw [roleAt_zero] at role
        contradiction
      rw [if_neg other, role]
      simp [busy]
  · refine ⟨callAcks bytes, ?_, callAcks_length bytes, fun k b h => callAcks_get h⟩
    rw [State.busAcks, if_neg (by simp [line]), if_pos call]
  · obtain ⟨line, role, free⟩ := hs
    have other : addr ≠ 0 := by
      rintro rfl
      rw [roleAt_zero] at role
      contradiction
    refine ⟨frameAcks bytes, ?_, frameAcks_length bytes, fun code len p => ⟨?_, ?_⟩⟩
    · rw [State.busAcks, if_neg (by simp [line]), if_neg other, role]
      exact if_neg (by simp [free])
    · rintro rfl
      rfl
    · rintro rfl
      exact frameAcks_get code len p
  · have whole (code len : Byte) (p : List Byte) (exact_ : p.length = len.toNat) (taken : len.toNat ≤ 250) :
        exec (.frameFormatError addr (code :: len :: p)) s = execFrame code addr p s :=
      if_pos ((exactPayload_iff len p).mpr ⟨taken, exact_⟩)
    refine ⟨rfl, fun code => congrArg _ (badFrame_heard hs code), fun code len p bad => ?_,
      fun code len p unknown exact_ taken => ?_, fun i code len p hi exact_ taken => ?_⟩
    · have inexact : ¬ exactPayload len p = true := by
        rw [exactPayload_iff]
        omega
      exact (if_neg inexact).trans (congrArg _ (badFrame_heard hs code))
    · rw [whole code len p exact_ taken]
      obtain ⟨i, hi, -⟩ | ⟨-, run⟩ := execFrame_cases code addr p
      · rw [knownCode_of_frame hi] at unknown
        contradiction
      · have refused : judge code.toNat r p s.starting = some .format := by
          rw [judge, if_neg (by omega), if_pos (by simp [unknown])]
        rw [congrFun run s, takeFrame_refused _ hs refused]
        rfl
    · rw [whole code len p exact_ taken, execFrame_of_frame hi]

/-! ## O7 -/

/-- A stalled frame is abandoned where none was held (R173). -/
theorem abandonFrame_eq {s : State} (frame : s.bus.frame = none) (timer : s.bus.stallTimer = false) (who : Nat)
    (dir : Direction) (bytes : List Byte) : abandonFrame who dir bytes s =
      raise .busabandon
        ([BitVec.ofNat 8 who, if dir = .read then 1 else 0] ++ be 2 (min bytes.length 65535)) s := by
  have same : { s with bus := { s.bus with frame := none, stallTimer := false } } = s := by rw [← frame, ← timer]
  have detail : be 1 who ++ be 1 (directionCode dir) ++ cap16 bytes.length =
      [BitVec.ofNat 8 who, if dir = .read then 1 else 0] ++ be 2 (min bytes.length 65535) := by
    cases dir <;> simp [be_one, directionCode, cap16]
  rw [abandonFrame, same, detail]

/-- A general call leaves the interface (R166). -/
theorem takeCall_bus (bytes : List Byte) (s : State) : (takeCall bytes s).bus = s.bus := by
  unfold takeCall
  split
  · rfl
  · split
    · rfl
    · unfold callByte
      split
      · rfl
      · split <;> rfl

/-- Settles O7. -/
theorem busStall_abandons : Obligations.BusStall := by
  intro s addr dir bytes line frame timer
  have run : exec (.busStall addr dir bytes) s = .next (busStall addr dir bytes s) := rfl
  have named (r : Role) (role : roleAt s.bus.strap addr = some r) : busStall addr dir bytes s =
      if dir = .write ∧ s.executing r = true then s else abandonFrame r.code dir bytes s := by
    have other : addr ≠ 0 := by
      rintro rfl
      rw [roleAt_zero] at role
      contradiction
    unfold busStall
    rw [if_neg (by simp [line]), if_neg other, role]
  refine ⟨fun r role heard => ?_, fun r role write busy => ?_, fun other none => ?_, fun call read => ?_, fun call write => ?_⟩
  · have acts : ¬ (dir = .write ∧ s.executing r = true) := by
      rintro ⟨rfl, busy⟩
      simp [busy] at heard
    rw [run, named r role, if_neg acts, abandonFrame_eq frame timer]
  · rw [run, named r role, if_pos ⟨write, busy⟩]
  · rw [run, busStall.eq_def, if_neg (by simp [line]), if_neg other, none]
  · rw [run, busStall.eq_def, if_neg (by simp [line]), if_pos call, read]
  · refine ⟨takeCall bytes s, rfl, ?_⟩
    rw [run, busStall.eq_def, if_neg (by simp [line]), if_pos call, write]
    exact congrArg _ (abandonFrame_eq ((congrArg Bus.frame (takeCall_bus ..)).trans frame)
      ((congrArg Bus.stallTimer (takeCall_bus ..)).trans timer) 4 .write bytes)

/-! ## O8 -/

/-- The bytes of a record answered (R172). -/
theorem Response.bytes_done (code : Byte) (res : ResultCode) (data : List Byte) :
    Response.bytes { state := .done, result := res, echo := code, data := data } =
      [2, BitVec.ofNat 8 res.code, code, BitVec.ofNat 8 data.length] ++ data := by
  simp [Response.bytes, be_one, RecordState.code]

/-- Settles O8. -/
theorem readRecord : Obligations.ReadRecord := by
  intro s addr r code res data k line role short
  have read (q : Role) (a : BitVec 7) (n : Nat) (named : roleAt s.bus.strap a = some q) :
      (s.answered r code res data).busRead a n =
        some ((((s.answered r code res data).bus.records.get q).bytes ++ List.replicate n 0xFF).take n) := by
    have named : roleAt (s.answered r code res data).bus.strap a = some q := named
    rw [State.busRead, if_neg (by exact Bool.not_eq_true _ ▸ line), named]
    rfl
  refine ⟨?_, ?_, fun a q n named other => ?_⟩
  · have record : (s.answered r code res data).bus.records.get r =
        { state := .done, result := res, echo := code, data := data } := PerRole.get_set_self ..
    rw [read r addr _ role, record, Response.bytes_done]
    have length : ([2, BitVec.ofNat 8 res.code, code, BitVec.ofNat 8 data.length] ++ data : List Byte).length =
        4 + data.length := by
      rw [List.length_append]
      rfl
    rw [List.take_append, List.take_of_length_le (by omega), length, Nat.add_sub_cancel_left, List.take_replicate,
      Nat.min_eq_left (by omega)]
  · have free : (s.answered r code res data).bus.slots.get r = .free := PerRole.get_set_self ..
    rw [State.executing, free]
  · have record : (s.answered r code res data).bus.records.get q = s.bus.records.get q :=
      (PerRole.get_set ..).trans (if_neg other)
    rw [read q a n named, record, State.busRead, if_neg (by simp [line]), named]
    rfl

end Sys2Proof.Machine
end

section
/-!
O20, O21, O23 to O25: the feed commands.
-/

namespace Sys2Proof.Machine

open Sys2Proof

/-! ## A feed command's way to its feed (R170) -/

theorem handedOver_eq (r : Role) (code : Byte) (s : State) : handedOver r code s = (caughtUp s).executes r code := rfl

@[simp] theorem State.executes_feed (u : State) (r : Role) (code : Byte) (x : Side) :
    (u.executes r code).feed x = u.feed x := by cases x <;> rfl

theorem State.executes_setFeed (u : State) (r : Role) (code : Byte) (x : Side) (f : Feed) :
    (u.executes r code).setFeed x f = (u.setFeed x f).executes r code := by cases x <;> rfl

@[simp] theorem State.executes_pages (u : State) (r : Role) (code : Byte) (x : Side) :
    (u.executes r code).pages x = u.pages x := by cases x <;> rfl

theorem State.executes_placed (u : State) (r : Role) (code : Byte) (x : Side) :
    (u.executes r code).placed x = u.placed x := by cases x <;> rfl

@[simp] theorem caughtUp_pages (s : State) (x : Side) : (caughtUp s).pages x = s.pages x := by
  cases x
  · exact caughtUp_pagesA s
  · exact caughtUp_pagesB s

/-- A feed changed while its command is with its owner (R171). -/
theorem complete_executes_setFeed (u : State) (r : Role) (code : Byte) (x : Side) (f : Feed) (res : ResultCode)
    (d : List Byte) : complete r res d ((u.executes r code).setFeed x f) = (u.setFeed x f).answered r code res d := by
  rw [State.executes_setFeed, complete_executes]

/-- The interface passes a command of a role that may give it for the feed it names (R170). -/
theorem judge_feed {c : Nat} {r : Role} {x : Side} (hr : MayCommand r x) (least : 0x10 ≤ c) (most : c ≤ 0x13)
    {rest : List Byte} (short : rest.length ≤ 249) : judge c r (BitVec.ofNat 8 x.code :: rest) false = none := by
  have known : knownCode c = true := by
    have most' : c ≤ 0x14 := most.trans (by decide)
    simp [knownCode, least, most']
  have field : judgeFeedField c r (BitVec.ofNat 8 x.code :: rest) = none := by
    simp only [judgeFeedField, sideOf_code_byte, foreignFeed_of_mayCommand hr, Bool.and_false]
    exact ite_self _
  have allowed : ¬ DeniedTo c r := by
    obtain rfl | ⟨rfl, rfl⟩ | ⟨rfl, rfl⟩ := hr <;> simp [DeniedTo] <;> omega
  exact judge_field_passed (by simpa using Nat.succ_le_succ short) known allowed field false

/-- A served feed command in order reaches its owner (R170, R190). -/
theorem exec_feed_served {i : Instr} {code : Byte} {addr : BitVec 7} {rest : List Byte} {r : Role} {x : Side} {s : State}
    (hi : i.frame = some (code, addr, BitVec.ofNat 8 x.code :: rest)) (hs : s.Serves addr r) (hr : MayCommand r x)
    (least : 0x10 ≤ code.toNat) (most : code.toNat ≤ 0x13) (short : rest.length ≤ 249)
    (good : goodLength code.toNat (rest.length + 1) = true) :
    exec i s = .next (Instr.owner i r ((caughtUp s).executes r code)) :=
  exec_served hi hs (by simpa using Nat.succ_le_succ short) (judge_feed hr least most short) good

/-! ## O25 -/

/-- The byte of a reason in an answer (spec/12). -/
theorem reason_byte (reason : Reason) : be 1 (reasonCode (some reason)) =
    [match reason with | .count => 1 | .sourceEnd => 2 | .stopped => 3 | .laneLost => 4] := by
  cases reason <;> rfl

/-- Settles O25. -/
theorem feedack_holds : Obligations.Feedack := by
  intro s c addr r x f hs hr hc hf
  have run : exec (.feedack addr [BitVec.ofNat 8 x.code]) s = .next (feedack x r (c.executes r 0x13)) := by
    rw [exec_feed_served (i := .feedack addr [BitVec.ofNat 8 x.code]) rfl hs hr (by decide) (by decide) (by simp) rfl, hc]
    show Host.Outcome.next (feedack (feedField _) r _) = _
    rw [feedField_code]
  have feed : (c.executes r 0x13).feed x = f := by rw [State.executes_feed, hf]
  have acked (rec : Completion) (complete_ : f.st = .complete) (done : f.completion = some rec) :
      feedack x r (c.executes r 0x13) = (c.setFeed x f.acknowledged).answered r 0x13 .ok
        ([(match rec.reason with | .count => 1 | .sourceEnd => 2 | .stopped => 3 | .laneLost => 4 : Byte)] ++
          be 5 rec.final ++ be 1 (bit f.pendingPlay.isSome)) := by
    rw [feedack, feed, complete_, done, State.onFeed, feed]
    dsimp only
    rw [reason_byte]
    exact complete_executes_setFeed ..
  refine ⟨fun other => ?_, fun rec complete_ done => ⟨fun none => ?_, fun v some => ⟨?_, rfl, rfl, rfl, rfl, rfl, rfl, rfl, rfl, rfl⟩⟩⟩
  · rw [run, feedack, feed]
    split
    next h _ => exact absurd h other
    · rw [complete_executes]
  · rw [run, acked rec complete_ done, Feed.acknowledged, none]
    rfl
  · rw [run, acked rec complete_ done, Feed.acknowledged, some]
    rfl

/-! ## O23 -/

theorem boolOf_of_gt {n : Nat} (h : 1 < n) : boolOf n = none := by
  match n, h with
  | k + 2, _ => rfl

/-- A STOP of a COMPLETE feed cancels its pending PLAY (R60). -/
theorem stopFeed_cancels {x : Side} {s : State} {v : PlayParams} (done : (s.feed x).st = .complete)
    (held : (s.feed x).pendingPlay = some v) (handover : Bool) (r : Role) : stopFeed x handover r s =
      complete r .ok [1] (s.onFeed x fun f => { f with pendingPlay := none }) := by
  simp only [stopFeed, done, held]

/-- A STOP of a feed on air waits (R61). -/
theorem stopFeed_awaits {x : Side} {s : State} (running : (s.feed x).st = .running)
    (leads : (s.feed x).role = .leader ∨ (s.feed x).role = .outgoing) (handover : Bool) (r : Role) :
    stopFeed x handover r s = awaitStop x handover r s := by
  simp only [stopFeed, running, leads, if_true]

/-- Settles O23. -/
theorem stop_holds : Obligations.Stop := by
  intro s c addr r x mode f hs hr hc hf
  have run : exec (.stop addr [BitVec.ofNat 8 x.code, mode]) s =
      .next (stop [BitVec.ofNat 8 x.code, mode] x r (c.executes r 0x12)) := by
    rw [exec_stop_served hs hr, hc]
    rfl
  have feed : (c.executes r 0x12).feed x = f := by rw [State.executes_feed, hf]
  refine ⟨fun bad => ?_, fun good => ?_⟩
  · have none : boolOf (u8 [BitVec.ofNat 8 x.code, mode] 1) = none := boolOf_of_gt bad
    rw [run, stop, none]
    exact congrArg _ (complete_executes ..)
  rw [run, stop_of_mode good]
  refine ⟨fun still => ?_, fun complete_ some => ?_, fun running leads => ?_⟩
  · have nothing := complete_executes c r 0x12 .nothing [0]
    rw [← nothing]
    obtain idle | ending | ⟨complete_, none⟩ := still
    · simp only [stopFeed, feed, idle]
    · simp only [stopFeed, feed, ending]
    · simp only [stopFeed, feed, complete_, none]
  · obtain ⟨v, held⟩ := Option.ne_none_iff_exists'.mp some
    rw [stopFeed_cancels (feed ▸ complete_) (feed ▸ held), State.onFeed, feed]
    exact congrArg _ (complete_executes_setFeed ..)
  · have zero : (!(mode.toNat == 1)) = (mode == 0) := by
      obtain e | e := Nat.le_one_iff_eq_zero_or_eq_one.mp good
      · obtain rfl : mode = 0 := BitVec.eq_of_toNat_eq e
        rfl
      · obtain rfl : mode = 1 := BitVec.eq_of_toNat_eq e
        rfl
    have due : (c.executes r 0x12).blockDue = s.blockDue := by
      show c.blockDue = _
      rw [hc, caughtUp_blockDue]
    rw [stopFeed_awaits (feed ▸ running) (feed ▸ leads), awaitStop, due, zero]
    rfl

/-! ## O21 -/

theorem playParams_spelled (x : Side) {pos count : Nat} (hp : pos < 2 ^ 40) (hc : count < 2 ^ 32) :
    playParams (BitVec.ofNat 8 x.code :: (be 5 pos ++ be 4 count)) = ⟨pos, count⟩ := by
  have first : ((BitVec.ofNat 8 x.code :: (be 5 pos ++ be 4 count)).drop 1).take 5 = be 5 pos :=
    List.take_left' (be_length 5 pos)
  have second : ((BitVec.ofNat 8 x.code :: (be 5 pos ++ be 4 count)).drop 6).take 4 = be 4 count := by
    have dropped : (BitVec.ofNat 8 x.code :: (be 5 pos ++ be 4 count)).drop 6 = be 4 count :=
      List.drop_left' (be_length 5 pos)
    rw [dropped, List.take_of_length_le (by simp)]
  rw [playParams, field, field, first, second, ofBe_be, ofBe_be, Nat.mod_eq_of_lt (by exact hp), Nat.mod_eq_of_lt (by exact hc)]

theorem Setup.fits_iff (u : Setup) (pages : Nat) : u.fits pages = true ↔ 2 ^ u.dExp * u.n ≤ pages * 1024 :=
  decide_eq_true_iff

theorem Feed.inPlay_of_idle {f : Feed} (h : f.st = .idle) : f.inPlay = false := by rw [Feed.inPlay, h]

theorem Feed.inPlay_of_complete {f : Feed} (h : f.st = .complete) : f.inPlay = false := by rw [Feed.inPlay, h]

/-- Settles O21. -/
theorem play_holds : Obligations.Play := by
  intro s c addr r x pos count hs hr hc hp hn
  have run : exec (.play addr (be 1 x.code ++ be 5 pos ++ be 4 count)) s =
      .next (play ⟨pos, count⟩ x r (c.executes r 0x11)) := by
    have payload : be 1 x.code ++ be 5 pos ++ be 4 count = BitVec.ofNat 8 x.code :: (be 5 pos ++ be 4 count) := by
      simp [be_one]
    rw [payload, exec_feed_served (i := .play addr _) rfl hs hr (by decide) (by decide) (by simp) (by simp; rfl), hc]
    show Host.Outcome.next (play (playParams _) (feedField _) r _) = _
    rw [feedField_code, playParams_spelled x hp hn]
  have feed : (c.executes r 0x11).feed x = c.feed x := State.executes_feed ..
  have placed : (c.executes r 0x11).placed x = decide (2 ^ (c.feed x).setup.dExp * (c.feed x).setup.n ≤ s.pages x * 1024) := by
    rw [State.placed, feed, State.executes_pages, hc, caughtUp_pages]
    rfl
  rw [run, play, feed, placed]
  have limit : Config.posEnd - 1 = 2 ^ 40 - 1 := rfl
  refine ⟨fun beyond => ?_, fun within => ⟨fun busy => ?_, fun complete_ held => ?_, fun rest big => ?_,
    fun fits => ⟨fun complete_ none => ?_, fun idle => ?_⟩⟩⟩
  · rw [if_pos (limit ▸ beyond), complete_executes]
  · rw [if_neg (limit ▸ Nat.not_lt.mpr within), if_pos busy, complete_executes]
  · rw [if_neg (limit ▸ Nat.not_lt.mpr within), if_neg (by simp [Feed.inPlay_of_complete complete_]),
      if_pos ⟨complete_, Option.ne_none_iff_isSome.mp held⟩, complete_executes]
  · have still : (c.feed x).inPlay = false := rest.elim Feed.inPlay_of_idle fun h => Feed.inPlay_of_complete h.1
    have free : ¬ ((c.feed x).st = .complete ∧ (c.feed x).pendingPlay.isSome = true) := by
      rintro ⟨complete_, some⟩
      obtain idle | ⟨-, none⟩ := rest
      · simp [idle] at complete_
      · simp [none] at some
    rw [if_neg (limit ▸ Nat.not_lt.mpr within), if_neg (by simp [still]), if_neg free,
      if_pos (decide_eq_false (Nat.not_le.mpr big)), complete_executes]
  · rw [if_neg (limit ▸ Nat.not_lt.mpr within), if_neg (by simp [Feed.inPlay_of_complete complete_]),
      if_neg (by simp [none]), if_neg (by simp [fits]), if_pos complete_, State.onFeed, feed, complete_executes_setFeed]
  · refine ⟨(c.feed x).takePlay ⟨pos, count⟩, ?_, rfl, rfl, rfl, rfl⟩
    rw [if_neg (limit ▸ Nat.not_lt.mpr within), if_neg (by simp [Feed.inPlay_of_idle idle]),
      if_neg (by simp [idle]), if_neg (by simp [fits]), if_neg (by simp [idle]), State.onFeed, feed,
      complete_executes_setFeed]

/-! ## O20 -/

theorem Setup.nominal_eq (u : Setup) (house : Rate) (baseNum baseDen num den : Nat)
    (base : (baseNum, baseDen) = (match u.rate, house with
      | .k48, .k96 => (1, 2) | .k48, .k48 => (1, 1) | .k96, .k96 => (1, 1) | .k96, .k48 => (2, 1)))
    (speed : (num, den) = (match u.speed with
      | .one => (1, 1) | .pullUp => (1001, 1000) | .pullDown => (1000, 1001) | .up25 => (25, 24)
      | .down24 => (24, 25))) : u.nominal house = 268435456 * baseNum * num / (baseDen * den) := by
  unfold Setup.nominal
  cases hr : u.rate <;> cases house <;> simp only [hr, Prod.mk.injEq] at base <;> obtain ⟨rfl, rfl⟩ := base <;>
    cases hs : u.speed <;> simp only [hs, Prod.mk.injEq] at speed <;> obtain ⟨rfl, rfl⟩ := speed <;> rfl

/-- The bounds of check 1 (R33). -/
theorem Setup.boundsOk_iff (u : Setup) : u.boundsOk = true ↔
    (u.lanes = 1 ∨ u.lanes = 2) ∧ u.lanes ≤ u.n ∧ u.n ≤ (if u.rate = .k48 then 48 else 24) * u.lanes ∧
      9 ≤ u.dExp ∧ u.dExp ≤ 13 ∧ 2 ≤ u.wExp ∧ u.wExp ≤ 5 := by
  have most : mostChannels u.rate u.lanes = (if u.rate = .k48 then 48 else 24) * u.lanes := by
    cases u.rate <;> rfl
  simp [Setup.boundsOk, most, and_assoc]

theorem modeOf_code (m : FeedMode) : modeOf (BitVec.ofNat 8 m.code).toNat = some m := by cases m <;> rfl

theorem speedOf_code (v : Speed) : speedOf (BitVec.ofNat 8 v.code).toNat = some v := by cases v <;> rfl

/-- A setup's bytes are read back as the setup, within its bounds (R33, check 1). -/
theorem setupOf_bytes (x : Side) {u : Setup} (hn : u.n < 256) (hl : u.lanes < 256) (hd : u.dExp < 256)
    (hw : u.wExp < 256) : setupOf (be 1 x.code ++ u.bytes) = if u.boundsOk then some u else none := by
  have small {k : Nat} (h : k < 256) : (BitVec.ofNat 8 k).toNat = k := by
    rw [BitVec.toNat_ofNat]
    exact Nat.mod_eq_of_lt h
  have spelled : be 1 x.code ++ u.bytes = [BitVec.ofNat 8 x.code, BitVec.ofNat 8 u.mode.code, BitVec.ofNat 8 u.rate.code,
      BitVec.ofNat 8 u.speed.code, BitVec.ofNat 8 u.lanes, BitVec.ofNat 8 u.n, BitVec.ofNat 8 u.dExp,
      BitVec.ofNat 8 u.wExp] := by simp [Setup.bytes, be_one]
  rw [spelled]
  show (match modeOf (BitVec.ofNat 8 u.mode.code).toNat, rateOf (BitVec.ofNat 8 u.rate.code).toNat,
      speedOf (BitVec.ofNat 8 u.speed.code).toNat with
    | some mode, some rate, some speed =>
      let v : Setup := ⟨mode, rate, speed, (BitVec.ofNat 8 u.n).toNat, (BitVec.ofNat 8 u.lanes).toNat,
        (BitVec.ofNat 8 u.dExp).toNat, (BitVec.ofNat 8 u.wExp).toNat⟩
      if v.boundsOk then some v else none
    | _, _, _ => none) = _
  rw [modeOf_code, rateOf_code_byte, speedOf_code, small hn, small hl, small hd, small hw]

/-- A mode, feed rate or speed factor of no meaning fails check 1 (R33). -/
theorem setupOf_unknown (b mode rate speed lanes n d w : Byte)
    (bad : 2 < mode.toNat ∨ 1 < rate.toNat ∨ 4 < speed.toNat) : setupOf [b, mode, rate, speed, lanes, n, d, w] = none := by
  have unread : modeOf mode.toNat = none ∨ rateOf rate.toNat = none ∨ speedOf speed.toNat = none := by
    obtain bad | bad | bad := bad
    · exact .inl (match mode.toNat, bad with | k + 3, _ => rfl)
    · exact .inr (.inl (rateOf_of_gt bad))
    · exact .inr (.inr (match speed.toNat, bad with | k + 5, _ => rfl))
  have fields : u8 [b, mode, rate, speed, lanes, n, d, w] 1 = mode.toNat ∧
      u8 [b, mode, rate, speed, lanes, n, d, w] 2 = rate.toNat ∧
      u8 [b, mode, rate, speed, lanes, n, d, w] 3 = speed.toNat := ⟨rfl, rfl, rfl⟩
  rw [setupOf, fields.1, fields.2.1, fields.2.2]
  split
  next hm hr hs => simp [hm, hr, hs] at unread
  · rfl

/-- A FEEDSET whose checks refuse it (R33). -/
theorem feedset_refused {p : List Byte} {x : Side} {r : Role} {s : State} {e : ResultCode × List Byte}
    (rest : (s.feed x).inPlay = false) (check : feedsetCheck p s.clock.rateClass (s.pages x) = .error e) :
    feedset p x r s = complete r e.1 e.2 s := by
  simp only [feedset, rest, check]
  rfl

/-- A FEEDSET that is taken (R34). -/
theorem feedset_taken {p : List Byte} {x : Side} {r : Role} {s : State} {u : Setup}
    (rest : (s.feed x).inPlay = false) (check : feedsetCheck p s.clock.rateClass (s.pages x) = .ok u) :
    feedset p x r s = complete r .ok [] (s.onFeed x fun f => f.install u s.clock.rateClass) := by
  simp only [feedset, rest, check]
  rfl

/-- Settles O20: the checks in their order, then what is installed. -/
theorem feedset_holds : Obligations.Feedset := by
  have reach {s c : State} {addr : BitVec 7} {r : Role} {x : Side} {rest : List Byte} (hs : s.Serves addr r)
      (hr : MayCommand r x) (hc : c = caughtUp s) (len : rest.length = 7) :
      exec (.feedset addr (be 1 x.code ++ rest)) s =
        .next (feedset (be 1 x.code ++ rest) x r (c.executes r 0x10)) := by
    have payload : be 1 x.code ++ rest = BitVec.ofNat 8 x.code :: rest := by simp [be_one]
    rw [payload, exec_feed_served (i := .feedset addr _) rfl hs hr (by decide) (by decide) (by omega) (by rw [len]; rfl), hc]
    show Host.Outcome.next (feedset _ (feedField _) r _) = _
    rw [feedField_code]
  refine ⟨fun u house baseNum baseDen num den base speed => u.nominal_eq house baseNum baseDen num den base speed,
    fun s c addr r x u hs hr hc hn hl hd hw => ?_, fun s addr r x mode rate speed lanes n d w hs hr still bad => ?_⟩
  · have feed : (c.executes r 0x10).feed x = c.feed x := State.executes_feed ..
    have house : (c.executes r 0x10).clock.rateClass = s.clock.rateClass := by
      show c.clock.rateClass = _
      rw [hc, caughtUp_clock]
    have pages : (c.executes r 0x10).pages x = s.pages x := by rw [State.executes_pages, hc, caughtUp_pages]
    have watch : u.watchOk s.clock.rateClass = decide (2 * 268435456 ≤ 2 ^ u.wExp * u.nominal s.clock.rateClass) := rfl
    have drain : u.drainOk s.clock.rateClass = decide (2 * 2 ^ u.wExp * 32 *
        (if u.nominal s.clock.rateClass ≤ 268435456 then 1
          else if u.nominal s.clock.rateClass ≤ 536870912 then 2 else 3) + 64 ≤ 2 ^ u.dExp / 2) := rfl
    have fits : u.fits (s.pages x) = decide (2 ^ u.dExp * u.n ≤ s.pages x * 1024) := rfl
    rw [reach hs hr hc (by simp [Setup.bytes])]
    refine ⟨fun busy => by rw [feedset, feed, if_pos busy, complete_executes], fun still => ?_⟩
    have rest : ((c.executes r 0x10).feed x).inPlay = false := feed.symm ▸ still
    have check := setupOf_bytes x hn hl hd hw
    have refused {e : ResultCode × List Byte}
        (judged : feedsetCheck (be 1 x.code ++ u.bytes) s.clock.rateClass (s.pages x) = .error e) :
        feedset (be 1 x.code ++ u.bytes) x r (c.executes r 0x10) = c.answered r 0x10 e.1 e.2 := by
      rw [feedset_refused rest (by rw [house, pages, judged]), complete_executes]
    refine ⟨fun outside => ?_, fun lanes least most dLeast dMost wLeast wMost => ?_⟩
    · rw [if_neg fun ok => outside (u.boundsOk_iff.mp ok)] at check
      rw [refused (e := (.range, [1])) (by rw [feedsetCheck, check])]
    · rw [if_pos (u.boundsOk_iff.mpr ⟨lanes, least, most, dLeast, dMost, wLeast, wMost⟩)] at check
      refine ⟨fun short => ?_, fun long drains => ?_, fun long drains => ⟨fun big => ?_, fun small => ?_⟩⟩
      · rw [refused (e := (.range, [2])) ?_]
        simp only [feedsetCheck, check, watch, decide_eq_false (Nat.not_le.mpr short), if_true]
      · rw [refused (e := (.range, [3])) ?_]
        simp only [feedsetCheck, check, watch, decide_eq_true long, drain, decide_eq_false (Nat.not_le.mpr drains),
          reduceCtorEq, if_false, if_true]
      · rw [refused (e := (.noRoom, [])) ?_]
        simp only [feedsetCheck, check, watch, decide_eq_true long, drain, decide_eq_true drains, fits,
          decide_eq_false (Nat.not_le.mpr big), reduceCtorEq, if_false, if_true]
      · have judged : feedsetCheck (be 1 x.code ++ u.bytes) s.clock.rateClass (s.pages x) = .ok u := by
          simp only [feedsetCheck, check, watch, decide_eq_true long, drain, decide_eq_true drains, fits,
            decide_eq_true small, reduceCtorEq, if_false]
        refine ⟨(c.feed x).install u s.clock.rateClass, ?_, rfl, rfl, rfl, rfl, rfl, rfl, rfl, rfl⟩
        rw [feedset_taken rest (by rw [house, pages, judged]), house, State.onFeed, feed, complete_executes_setFeed]
  · have feed : ((caughtUp s).executes r 0x10).feed x = (caughtUp s).feed x := State.executes_feed ..
    have unread : setupOf (be 1 x.code ++ [mode, rate, speed, lanes, n, d, w]) = none :=
      setupOf_unknown _ mode rate speed lanes n d w bad
    rw [reach hs hr rfl rfl, feedset_refused (e := (.range, [1])) (feed.symm ▸ still) (by rw [feedsetCheck, unread]),
      complete_executes]

/-! ## O24 -/

/-- The command that a role has in execution completes (R171). -/
theorem complete_of_executing {r : Role} {code : Byte} {t : State} (h : t.bus.slots.get r = .executing code)
    (res : ResultCode) (d : List Byte) : complete r res d t = t.answered r code res d := by
  rw [complete, h]
  rfl

/-- An awaiting STOP whose turn it is, with no transition over (R100). -/
theorem exec_stopOnAirTake {s : State} {r : Role} {x : Side} {handover : Bool} {rest : List Awaiting}
    (line : s.resetLine = false) (quiet : s.sel.over = false)
    (front : s.sel.awaiting = { order := .stop r x handover, due := true } :: rest) :
    exec (.stopOnAirTake r) s =
      .next (stopTaken r x handover { s with sel := { s.sel with awaiting := rest } }) := by
  have turn : s.sel.turn = some (.stop r x handover) := by rw [Selector.turn_cons front]; rfl
  have tail : s.onSel Selector.turnTaken = { s with sel := { s.sel with awaiting := rest } } := by
    rw [State.onSel, Selector.turnTaken, front]
    rfl
  show Host.Outcome.next (stopTake r s) = _
  rw [stopTake, if_neg (by simp [line]), turn]
  simp only [if_true, turnTake, turn, caughtUp_of_quiet quiet, tail]
  rfl

/-- A STOP that is not the first, or whose block event has not fallen, is not taken (R100). -/
theorem exec_stopOnAirTake_early {s : State} {q : Role}
    (h : ∀ x handover rest, s.sel.awaiting ≠ { order := .stop q x handover, due := true } :: rest) :
    exec (.stopOnAirTake q) s = .next s := by
  show Host.Outcome.next (stopTake q s) = _
  unfold stopTake
  split
  · rfl
  · split
    next p x handover turn =>
      split
      next e =>
        subst e
        unfold Selector.turn at turn
        split at turn
        next e l front =>
          split at turn
          next due =>
            obtain ⟨order, isDue⟩ := e
            obtain rfl : order = .stop p x handover := Option.some.inj turn
            obtain rfl : isDue = true := due
            exact absurd front (h x handover l)
          · simp at turn
        · simp at turn
      · rfl
    · rfl

/-- The first byte of SILENCE (spec/12). -/
theorem sideByte_eq (heard : Option Side) :
    sideByte heard = match heard with | some .a => 0 | some .b => 1 | none => 0xFF := by
  obtain _ | _ | _ := heard <;> rfl

/-- A feed that is not RUNNING has nothing to stop any more (log 25). -/
theorem stopTaken_other {x : Side} {s : State} (h : (s.feed x).st ≠ .running) (r : Role) (handover : Bool) :
    stopTaken r x handover s = complete r .nothing [0] s := if_neg h

/-- A feed that has become the standby completes (R60, R61). -/
theorem stopTaken_standby {x : Side} {s : State} (running : (s.feed x).st = .running)
    (role : (s.feed x).role = .standby) (r : Role) (handover : Bool) :
    stopTaken r x handover s = complete r .ok [2] (completeFeed x .stopped s) := by
  simp [stopTaken, running, role]

/-- A feed on air is stopped by the selector's state (R100). -/
theorem stopTaken_leads {x : Side} {s t : State} {d : Byte} (running : (s.feed x).st = .running)
    (role : (s.feed x).role = .leader ∨ (s.feed x).role = .outgoing) {handover : Bool}
    (act : stopOnAir x handover s = (d, t)) (done : d ≠ 0) (r : Role) :
    stopTaken r x handover s = complete r .ok [d] t := by
  simp only [stopTaken, running, role, if_true, act, done, if_false]

section StopOnAir

variable {u : State} {r : Role} {x : Side} {code : Byte} (slot : u.bus.slots.get r = .executing code)
  (running : (u.feed x).st = .running)
include slot running

/-- The stop of the leader on air, with a standby to hand over to (R100). -/
theorem stopTaken_handover (role : (u.feed x).role = .leader) (state : u.sel.state = .onair x)
    (standby : (u.feed x.other).isStandby = true) (aligned : u.sel.aligned = true) :
    stopTaken r x true u =
      (((({ u with
          sel := { u.sel with
            state := .xfade x, n := 0, kx := u.sel.policyKx, abandoned := false, n0 := 0, j := 0, cold := none
            aligned := false } }).setFeed x
          { u.feed x with st := .ending, role := .outgoing, ending := some .stopped }).setFeed x.other
          { u.feed x.other with role := .leader }).answered r code .ok [3]) := by
  have act : stopOnAir x true u = (3, setEnding x .stopped (beginXfade x u)) := by
    simp [stopOnAir, state, standby, aligned]
  rw [stopTaken_leads running (.inl role) act (by decide), complete_of_executing (code := code)]
  · cases x <;> rfl
  · exact slot

/-- The stop of the leader on air, with none to hand over to or none wanted (R100). -/
theorem stopTaken_fade {handover : Bool} (role : (u.feed x).role = .leader) (state : u.sel.state = .onair x)
    (alone : handover = false ∨ (u.feed x.other).isStandby = false ∨ u.sel.aligned = false) :
    stopTaken r x handover u =
      (({ u with
          sel := { u.sel with
            state := .fade x, n := 0, kx := u.sel.policyKx, abandoned := false, n0 := 0, j := 0, cold := none
            fadeCause := .stop } }.setFeed x
          { u.feed x with st := .ending, ending := some .stopped }).answered r code .ok [4]) := by
  have none : ¬ (handover && (u.feed x.other).isStandby && u.sel.aligned) = true := by
    obtain h | h | h := alone <;> simp [h]
  have act : stopOnAir x handover u = (4, setEnding x .stopped (beginFade x .stop Option.none u)) := by
    simp only [stopOnAir, state]
    exact if_neg none
  rw [stopTaken_leads running (.inl role) act (by decide), complete_of_executing (code := code)]
  · cases x <;> rfl
  · exact slot

/-- The stop of a rise that has been heard (R99). -/
theorem stopTaken_rise (handover : Bool) (role : (u.feed x).role = .leader) (state : u.sel.state = .rise x)
    (begun : 0 < u.sel.n) :
    stopTaken r x handover u =
      (({ u with
          sel := { u.sel with
            state := .fade x, n := 2 ^ u.sel.kx - u.sel.n, cold := none, fadeCause := .fadeBack } }.setFeed
          x { u.feed x with st := .ending, ending := some .stopped }).answered r code .ok [4]) := by
  have act : stopOnAir x handover u = (4, (setEnding x .stopped u).onSel fun v =>
      { v with state := .fade x, n := v.len - v.n, cold := none, fadeCause := .fadeBack }) := by
    simp only [stopOnAir, state, fadeBack, Nat.pos_iff_ne_zero.mp begun, if_false]
  rw [stopTaken_leads running (.inl role) act (by decide), complete_of_executing (code := code)]
  · cases x <;> rfl
  · exact slot

/-- The stop of a rise that has not been heard (R99, R105). -/
theorem stopTaken_silent (handover : Bool) {done : Feed → Feed} (hd : ∀ g, done g = { g with
      st := .complete, role := .none, ending := none, completion := some { reason := .stopped, final := g.rs.i }
      pace := ⟨false, false, false, 0, ⟨false, false⟩, ⟨false, false⟩, false⟩ })
    (role : (u.feed x).role = .leader) (state : u.sel.state = .rise x) (unheard : u.sel.n = 0) :
    stopTaken r x handover u =
      ((raise .silence ([sideByte u.sel.lastHeard, 2] ++ be 2 (u.sel.pos % 65536))
        (raise .feeddone ([BitVec.ofNat 8 x.code, 3] ++ be 2 ((u.feed x).rs.i % 65536)) { u.setFeed x (done (u.feed x)) with
          sel := { u.sel with
            state := .silent, n := 0, abandoned := false, n0 := 0, j := 0, cold := none } })).answered
          r code .ok [4]) := by
  have act : stopOnAir x handover u =
      (4, enterSilent u.sel.lastHeard .fadeBack (completeFeed x .stopped (setEnding x .stopped u))) := by
    simp only [stopOnAir, state, fadeBack, unheard, if_true]
  have sel : (u.sel.dropped x ((setEnding x .stopped u).feed x).isStandby).rest .silent =
      { u.sel with state := .silent, n := 0, abandoned := false, n0 := 0, j := 0, cold := none } := by
    simp [Selector.dropped, Selector.rest, Feed.isStandby]
  rw [stopTaken_leads running (.inl role) act (by decide), complete_of_executing (code := code), hd]
  · show (raise .silence _ { completeFeed x .stopped (setEnding x .stopped u) with
      sel := (u.sel.dropped x ((setEnding x .stopped u).feed x).isStandby).rest .silent }).answered .. = _
    rw [sel]
    cases x <;> rfl
  · exact slot

/-- The stop of the incoming leader of a crossfade (R98). -/
theorem stopTaken_abandons (handover : Bool) (role : (u.feed x).role = .leader)
    (state : u.sel.state = .xfade x.other) :
    stopTaken r x handover u =
      (({ u with sel := { u.sel with abandoned := true, n0 := u.sel.n, j := 0 } }.setFeed x
        { u.feed x with st := .ending, ending := some .stopped }).answered r code .ok [4]) := by
  have act : stopOnAir x handover u = (4, abandonXfade x .stopped u) := by
    cases x <;> simp [stopOnAir, state, Side.other]
  rw [stopTaken_leads running (.inl role) act (by decide), complete_of_executing (code := code)]
  · cases x <;> rfl
  · exact slot

/-- The stop of the outgoing feed of a crossfade (R100). -/
theorem stopTaken_outgoing (handover : Bool) (role : (u.feed x).role = .outgoing) (state : u.sel.state = .xfade x) :
    stopTaken r x handover u =
      ((u.setFeed x { u.feed x with st := .ending, ending := some .stopped }).answered r code .ok [4]) := by
  have act : stopOnAir x handover u = (4, setEnding x .stopped u) := by simp [stopOnAir, state]
  rw [stopTaken_leads running (.inr role) act (by decide), complete_of_executing (code := code)]
  · rfl
  · exact slot

end StopOnAir

/-- The stop of a standby completes it (R57, R60, R91). -/
theorem stopTaken_completes {u : State} {r : Role} {x : Side} {code : Byte}
    (slot : u.bus.slots.get r = .executing code) {done : Feed → Feed} (hd : ∀ g, done g = { g with
      st := .complete, role := .none, ending := none, completion := some { reason := .stopped, final := g.rs.i }
      pace := ⟨false, false, false, 0, ⟨false, false⟩, ⟨false, false⟩, false⟩ })
    (running : (u.feed x).st = .running) (role : (u.feed x).role = .standby) (handover : Bool) :
    stopTaken r x handover u =
      (raise .feeddone ([BitVec.ofNat 8 x.code, 3] ++ be 2 ((u.feed x).rs.i % 65536)) { u.setFeed x (done (u.feed x)) with
        sel := { u.sel with aligned := false, cold := if u.sel.cold = some x then none else u.sel.cold } }).answered
          r code .ok [2] := by
  have sel : u.sel.dropped x (u.feed x).isStandby =
      { u.sel with aligned := false, cold := if u.sel.cold = some x then none else u.sel.cold } := by
    simp [Selector.dropped, Feed.isStandby, running, role]
  rw [stopTaken_standby running role, complete_of_executing (code := code), hd]
  · rw [completeFeed_eq, sel]
    cases x <;> rfl
  · exact slot

/-- Settles O24: by the feed's role and the selector's state. -/
theorem stopOnAir_holds : Obligations.StopOnAir := by
  refine ⟨fun s u r x handover rest code f done hd line quiet front slot hf hu => ?_, fun s q early =>
    exec_stopOnAirTake_early early⟩
  have taken : exec (.stopOnAirTake r) s = .next (stopTaken r x handover u) := by
    rw [exec_stopOnAirTake line quiet front, hu]
  have slot' : u.bus.slots.get r = .executing code := by rw [hu]; exact slot
  subst hf hu
  refine ⟨fun running role state => ⟨fun wanted standby aligned => ?_, fun alone => ?_⟩,
    fun running role state => ⟨fun begun => ?_, fun unheard => ?_⟩, fun running role state => ?_,
    fun running role state => ?_, fun other => ?_, fun running role => ?_⟩
  · rw [taken, wanted]
    exact congrArg _ (stopTaken_handover slot' running role state standby aligned)
  · exact taken.trans (congrArg _ (stopTaken_fade slot' running role state alone))
  · exact taken.trans (congrArg _ (stopTaken_rise slot' running handover role state begun))
  · rw [taken, stopTaken_silent slot' running handover hd role state unheard]
    rcases s.sel.lastHeard with _ | _ | _ <;> rfl
  · exact taken.trans (congrArg _ (stopTaken_abandons slot' running handover role state))
  · exact taken.trans (congrArg _ (stopTaken_outgoing slot' running handover role state))
  · rw [taken, stopTaken_other (by exact other), complete_of_executing slot']
  · exact taken.trans (congrArg _ (stopTaken_completes slot' hd running role handover))

end Sys2Proof.Machine
end

section
/-!
O19, O30, O31, O32, O33: the selector's transitions, from what begins one to what it leaves.
-/

namespace Sys2Proof.Machine

open Sys2Proof
/-! ## O19 -/

theorem completeFeed_routing (x : Side) (reason : Reason) (s : State) :
    (completeFeed x reason s).notices.routing = s.notices.routing := raise_routing ..

/-- A feed that does not lead completes at its loss (R58). -/
theorem lossTaken_alone {x : Side} {s : State} (h : (s.feed x).st = .seeking ∨ (s.feed x).st = .primed ∨
    (s.feed x).st = .running ∧ (s.feed x).role = .standby) : lossTaken x s = completeFeed x .laneLost s := by
  obtain h | h | ⟨h, role⟩ := h <;> simp [lossTaken, *]

/-- The loss of a feed that is not in play, or that is ending, changes nothing (R58). -/
theorem lossTaken_none {x : Side} {s : State} (h : (s.feed x).st = .idle ∨ (s.feed x).st = .ending ∨
    (s.feed x).st = .complete) : lossTaken x s = s := by
  obtain h | h | h := h <;> simp [lossTaken, h]

/-- The loss of a feed on air is the selector's (R93). -/
theorem lossTaken_onAir {x : Side} {s : State} (running : (s.feed x).st = .running)
    (role : (s.feed x).role = .leader ∨ (s.feed x).role = .outgoing) : lossTaken x s = selectorLoss x s := by
  obtain role | role := role <;> simp [lossTaken, running, role]

theorem enterSilent_shows {s : State} {r : Role} (line : s.resetLine = false)
    (goes : s.notices.routing.getD 3 none = some r) (heard : Option Side) (cause : SilenceCause) :
    (enterSilent heard cause s).notices.Shows r .silence ([sideByte heard] ++ be 1 cause.code ++ low16 s.sel.pos)
      s.houseTime := raise_shows (s := s.onSel fun v => v.rest .silent) (k := .silence) line goes _

theorem selectorLoss_onair {x : Side} {s : State} (h : s.sel.state = .onair x) : selectorLoss x s = failover x s := by
  simp [selectorLoss, h]

theorem selectorLoss_incoming {x : Side} {s : State} (h : s.sel.state = .xfade x.other) :
    selectorLoss x s = abandonXfade x .laneLost s := by simp [selectorLoss, h, (Side.ne_other x).symm]

theorem selectorLoss_outgoing {x : Side} {s : State} (h : s.sel.state = .xfade x) :
    selectorLoss x s = setEnding x .laneLost s := by simp [selectorLoss, h]

theorem selectorLoss_rise {x : Side} {s : State} (h : s.sel.state = .rise x) :
    selectorLoss x s = fadeBack x .laneLost s := by simp [selectorLoss, h]

/-- Settles O19: by the feed's state, and for a feed on air by the selector's. -/
theorem failover_holds : Obligations.Failover := by
  rintro s x y f rfl rfl
  refine ⟨fun alone => ?_, lossTaken_none, fun running role state => ⟨fun stands aligned => ?_, fun stands aligned => ?_,
    fun stands => ?_⟩, fun running role state => ?_, fun running role state => ?_, fun running role state begun => ?_,
    fun running role state unheard => ?_⟩
  · refine ⟨(s.setFeed x ((s.feed x).completed .laneLost)).onSel fun v => v.dropped x (s.feed x).isStandby,
      (lossTaken_alone alone).trans ?_, ?_, ?_, ?_, fun cold => ?_, rfl⟩
    · cases x <;> rfl
    · cases x <;> rfl
    · cases x <;> rfl
    · cases x <;> rfl
    · simp [State.onSel, Selector.dropped, cold]
  all_goals rw [lossTaken_onAir running (by simp [role])]
  · rw [selectorLoss_onair state, failover, if_pos stands, if_pos aligned]
    cases x <;> rfl
  · rw [selectorLoss_onair state, failover, if_pos stands, if_neg (by simp [aligned])]
    cases x <;> rfl
  · rw [selectorLoss_onair state, failover, if_neg (by simp [stands])]
    cases x <;> rfl
  · rw [selectorLoss_incoming state]
    cases x <;> rfl
  · rw [selectorLoss_outgoing state]
    rfl
  · rw [selectorLoss_rise state, fadeBack, if_neg (Nat.pos_iff_ne_zero.mp begun)]
    cases x <;> rfl
  · have silent : selectorLoss x s =
        enterSilent s.sel.lastHeard .fadeBack (completeFeed x .laneLost (setEnding x .laneLost s)) := by
      rw [selectorLoss_rise state, fadeBack, if_pos unheard]
    rw [silent]
    refine ⟨rfl, ?_, ?_, ?_, fun r line goes => ?_⟩
    · simp [Feed.completed]
    · simp [Feed.completed]
    · simp
    · have goes' : (completeFeed x .laneLost (setEnding x .laneLost s)).notices.routing.getD 3 none = some r := by
        rw [completeFeed_routing]
        exact goes
      obtain ⟨v, hv, kind, detail, -⟩ := enterSilent_shows (by exact line) goes' s.sel.lastHeard .fadeBack
      refine ⟨v, hv, kind, detail.trans ?_⟩
      rcases s.sel.lastHeard with _ | _ | _ <;> rfl

/-! ## Completions, as they are told (R57) -/

/-- Past its last needed frame (R55). -/
theorem Feed.atEnd_iff (f : Feed) : f.atEnd = true ↔ ∃ e, f.lastNeeded = some e ∧ e < f.rs.i := by
  unfold Feed.atEnd
  split
  next e h => simp [h]
  next h => simp [h]

/-- The reason of a feed's own end: COUNT where the last needed frame is S + N - 1 (R55). -/
theorem Feed.endReason_eq {f : Feed} (past : f.atEnd = true) : f.endReason =
    if f.count ≠ 0 ∧ f.lastNeeded = some (f.startPos + f.count - 1) then .count else .sourceEnd := by
  obtain ⟨e, last, -⟩ := f.atEnd_iff.mp past
  rw [Feed.endReason, Feed.countEnd]
  by_cases none : f.count = 0
  · simp [none, last]
  · simp [none]

theorem Feed.isStandby_of_ending {f : Feed} (h : f.st = .ending) : f.isStandby = false := by simp [Feed.isStandby, h]

/-- A selector at rest keeps nothing of a feed that did not stand by (R89). -/
theorem Selector.dropped_rest (v : Selector) (x : Side) (st : SelState) : (v.dropped x false).rest st = v.rest st := by
  simp [Selector.dropped, Selector.rest]

theorem Selector.dropped_both (v : Selector) (x y : Side) (stood : Bool) :
    ((v.dropped y false).dropped x stood).rest .silent = { v.rest .silent with aligned := v.aligned && !stood } := by
  simp [Selector.dropped, Selector.rest]

/-- What a completion leaves: the completed feed, its word to the selector, and FEEDDONE (R57). -/
structure TellsDone (done : Feed → Reason → Feed) (told : Side → Feed → Reason → State → State) : Prop where
  done_eq : ∀ f q, done f q = f.completed q
  told_eq : ∀ z f q s, told z f q s =
    raise .feeddone (be 1 z.code ++ be 1 (reasonCode (some q)) ++ low16 f.rs.i) s

section TransitionEnd

variable {done : Feed → Reason → Feed} {told : Side → Feed → Reason → State → State} (tells : TellsDone done told)
  {s : State} {x : Side}
include tells

theorem TellsDone.completeFeed (x : Side) (q : Reason) (s : State) :
    Machine.completeFeed x q s = told x (s.feed x) q { s.setFeed x (done (s.feed x) q) with
      sel := s.sel.dropped x (s.feed x).isStandby } := by
  rw [tells.told_eq, tells.done_eq]
  rfl

/-- A faded feed's end in SILENT (R89, R105). -/
theorem TellsDone.endTransition_fade (state : s.sel.state = .fade x) (cold : s.sel.cold = none) {q : Reason}
    (st : (s.feed x).st = .ending) (ending : (s.feed x).ending = some q) :
    endTransition s = raise .silence (be 1 x.code ++ be 1 s.sel.fadeCause.code ++ low16 s.sel.pos)
      (told x (s.feed x) q { s.setFeed x (done (s.feed x) q) with sel := s.sel.rest .silent }) := by
  have ends : endTransition s = enterSilent (some x) s.sel.fadeCause (Machine.completeFeed x q s) := by
    simp only [endTransition, state, cold, ending, Option.getD_some]
  rw [ends, tells.completeFeed, Feed.isStandby_of_ending st, enterSilent, ← Selector.dropped_rest s.sel x,
    tells.told_eq, tells.told_eq]
  cases x <;> rfl

/-- A cold fade's end: the standby, repositioned, begins its rise (R71, R96). -/
theorem TellsDone.endTransition_cold (state : s.sel.state = .fade x) (cold : s.sel.cold = some x.other) {q : Reason}
    (ending : (s.feed x).ending = some q) :
    endTransition s = told x (s.feed x) q
      { (s.setFeed x (done (s.feed x) q)).setFeed x.other { (s.feed x.other).repositioned with role := .leader } with
        sel := { s.sel.start (.rise x.other) with aligned := false } } := by
  have ends : endTransition s = ((Machine.completeFeed x q s).onFeed x.other fun f =>
      { f.repositioned with role := .leader }).onSel fun v => { v.start (.rise x.other) with aligned := false } := by
    simp only [endTransition, state, cold, ending, Option.getD_some]
  rw [ends, tells.completeFeed, tells.told_eq, tells.told_eq]
  cases x <;> rfl

end TransitionEnd

/-- A rise ends on air (R89). -/
theorem endTransition_rise {s : State} {x : Side} (state : s.sel.state = .rise x) :
    endTransition s = { s with sel := s.sel.rest (.onair x) } := by
  simp only [endTransition, state]
  rfl

/-- A crossfade ends on the feed that came in (R89). -/
theorem endTransition_xfade {s : State} {x : Side} (state : s.sel.state = .xfade x) (kept : s.sel.abandoned = false) :
    endTransition s = (finishOutgoing x s).onSel fun v => v.rest (.onair x.other) := by
  simp [endTransition, state, kept]

/-- An abandoned crossfade ends in SILENT (R98). -/
theorem endTransition_abandoned {s : State} {x : Side} (state : s.sel.state = .xfade x)
    (gone : s.sel.abandoned = true) {p : Reason} (ending : (s.feed x.other).ending = some p) :
    endTransition s = enterSilent (some x.other) .abandon (finishOutgoing x (completeFeed x.other p s)) := by
  simp only [endTransition, state, gone, ending, if_true, Option.getD_some]

/-- An outgoing feed that goes on stands by, not aligned (R55, R89). -/
theorem finishOutgoing_stands {s : State} {x : Side} (st : (s.feed x).st = .running) (goes : (s.feed x).atEnd = false) :
    finishOutgoing x s = { s.setFeed x { s.feed x with role := .standby } with
      sel := { s.sel with aligned := false, fresh := s.blockDue } } := by
  have stands : finishOutgoing x s =
      (setRole x .standby s).onSel fun v => { v with aligned := false, fresh := s.blockDue } := by
    simp only [finishOutgoing, st, goes, Bool.false_eq_true, if_false]
  rw [stands]
  cases x <;> rfl

/-- An outgoing feed that is ending, or past its own end, completes (R55, R89). -/
theorem finishOutgoing_completes {s : State} {x : Side} {q : Reason}
    (h : (s.feed x).st = .ending ∧ (s.feed x).ending = some q ∨
      (s.feed x).st = .running ∧ (s.feed x).atEnd = true ∧ q = (s.feed x).endReason) :
    finishOutgoing x s = completeFeed x q s := by
  obtain ⟨st, ending⟩ | ⟨st, past, rfl⟩ := h
  · simp only [finishOutgoing, st, ending, Option.getD_some]
  · simp only [finishOutgoing, st, past, if_true]

/-- How far a transition has to go (R89, R98). -/
theorem Selector.over_iff {s : State} (h : Selector.CountsOk s) : s.sel.over = true ↔
    (∃ x, s.sel.state = .rise x ∨ s.sel.state = .fade x ∨ s.sel.state = .xfade x) ∧
      if s.sel.abandoned then s.sel.n0 + s.sel.j = 2 ^ s.sel.kx else s.sel.n = 2 ^ s.sel.kx := by
  obtain ⟨-, -, -, n, j, -⟩ := h
  have moving : s.sel.state.inTransition = true ↔
      ∃ x, s.sel.state = .rise x ∨ s.sel.state = .fade x ∨ s.sel.state = .xfade x := by
    cases s.sel.state <;> simp [SelState.inTransition]
  rw [Selector.over, Bool.and_eq_true, moving, decide_eq_true_iff, Selector.formed, Selector.len]
  refine and_congr_right fun _ => ?_
  split
  · exact ⟨fun le => Nat.le_antisymm j le, ge_of_eq⟩
  · exact ⟨fun le => Nat.le_antisymm n le, ge_of_eq⟩

/-- Settles O30: by the transition that ends. -/
theorem transitionEnd_holds : Obligations.TransitionEnd := by
  refine ⟨fun s h => Selector.over_iff h, fun past own done told rest hp ho hd ht hr s x y f g line hy hf hg => ?_⟩
  have tells : TellsDone done told :=
    ⟨hd, fun z f q s => (ht z f q s).trans (by cases z <;> cases q <;> rfl)⟩
  obtain rfl : rest = Selector.rest := funext fun v => funext fun st => hr v st
  have isPast {f : Feed} : past f ↔ f.atEnd = true := (hp f).trans f.atEnd_iff.symm
  subst hy hf hg
  have finishes {q : Reason} (h : (s.feed x).st = .ending ∧ (s.feed x).ending = some q ∨
      (s.feed x).st = .running ∧ past (s.feed x) ∧ q = own (s.feed x)) :
      (s.feed x).st = .ending ∧ (s.feed x).ending = some q ∨
      (s.feed x).st = .running ∧ (s.feed x).atEnd = true ∧ q = (s.feed x).endReason := by
    refine h.imp_right fun ⟨st, far, reason⟩ => ⟨st, isPast.mp far, ?_⟩
    rw [reason, ho, Feed.endReason_eq (isPast.mp far)]
  have goesOn (h : ¬ past (s.feed x)) : (s.feed x).atEnd = false := by simpa [isPast] using h
  have taken : exec .transitionEnd s = .next (caughtUp s) := by
    show Host.Outcome.next (transitionEnd s) = _
    rw [transitionEnd, if_neg (by simp [line])]
  refine ⟨fun early => by rw [taken, caughtUp_of_quiet early], fun formed => ?_⟩
  have ended : exec .transitionEnd s = .next (endTransition s) := by rw [taken, caughtUp, if_pos formed]
  rw [ended]
  refine ⟨fun state => congrArg _ (endTransition_rise state), fun state kept st goes => ?_, fun q state kept ends => ?_,
    fun p state gone st ending => ⟨fun goes far => ?_, fun q ends => ?_⟩, fun q state cold st ending => ?_,
    fun q state cold st ending => ?_⟩
  · rw [endTransition_xfade state kept, finishOutgoing_stands st (goesOn goes)]
    cases x <;> rfl
  · rw [endTransition_xfade state kept, finishOutgoing_completes (finishes ends), tells.completeFeed, tells.told_eq,
      tells.told_eq]
    cases x <;> rfl
  · rw [endTransition_abandoned state gone ending, finishOutgoing_stands (by simpa using goes) (by simpa using goesOn far),
      tells.completeFeed, tells.told_eq, tells.told_eq]
    cases x <;> rfl
  · have unmoved : (completeFeed x.other p s).feed x = s.feed x := by simp
    rw [endTransition_abandoned state gone ending, finishOutgoing_completes (by rw [unmoved]; exact finishes ends),
      tells.completeFeed, unmoved, tells.completeFeed, Feed.isStandby_of_ending st, ← Selector.dropped_both]
    simp only [tells.told_eq]
    cases x <;> rfl
  · rw [tells.endTransition_fade state cold st ending]
    rcases s.sel.fadeCause with _ | _ <;> rfl
  · rw [tells.endTransition_cold state cold ending]
    rfl

/-! ## O33 -/

theorem Feed.lastNeeded_eq (f : Feed) : f.lastNeeded = match f.sourceEnd, f.count with
    | none, 0 => none
    | some e, 0 => some e
    | none, n + 1 => some (f.startPos + n)
    | some e, n + 1 => some (min e (f.startPos + n)) := by
  unfold Feed.lastNeeded Feed.countEnd
  cases f.sourceEnd <;> cases f.count <;> rfl

theorem Feed.isStandby_of_not_read {f : Feed} (h : f.isRead = false) : f.isStandby = false := by
  rw [← Bool.not_eq_true] at h ⊢
  exact fun stands => h (Feed.isRead_of_isStandby stands)

/-- A feed that is read completes with the leader (R55). -/
theorem completeWith_read {s : State} {x : Side} {q p : Reason}
    (h : (s.feed x).st = .running ∧ p = q ∨ (s.feed x).st = .ending ∧ (s.feed x).ending = some p) :
    completeWith x q s = completeFeed x p s := by
  obtain ⟨st, rfl⟩ | ⟨st, ending⟩ := h
  · simp only [completeWith, st]
  · simp only [completeWith, st, ending, Option.getD_some]

theorem completeWith_unread {s : State} {x : Side} (h : (s.feed x).isRead = false) (q : Reason) :
    completeWith x q s = s := by
  unfold completeWith
  split
  next st => simp [Feed.isRead, st] at h
  next st => simp [Feed.isRead, st] at h
  · rfl

/-- The leader at its end takes its reason with it (R55). -/
theorem leaderEnds_eq {s : State} {x : Side} {q : Reason} (h : (s.feed x).st = .running ∧ q = (s.feed x).endReason ∨
    (s.feed x).st = .ending ∧ (s.feed x).ending = some q) :
    leaderEnds x s = enterSilent (some x) .ended (completeWith x.other q (completeFeed x q s)) := by
  obtain ⟨st, rfl⟩ | ⟨st, ending⟩ := h
  · simp only [leaderEnds, st, reduceCtorEq, if_false]
  · simp only [leaderEnds, st, ending, if_true, Option.getD_some]

theorem takeEnds_leader {s : State} {x : Side} (leads : s.sel.state.leader = some x) (read : (s.feed x).isRead = true)
    (past : (s.feed x).atEnd = true) : takeEnds s = leaderEnds x s := by
  simp only [takeEnds, leads, read, past, Bool.and_self, if_true]

theorem standbyEnds_of_not {s : State} {x : Side} (h : (s.feed x).isStandby = false ∨ (s.feed x).atEnd = false) :
    standbyEnds x s = s := by
  rw [standbyEnds, if_neg]
  obtain h | h := h <;> simp [h]

/-- Without a leader at its end, only the standby can end (R55). -/
theorem takeEnds_standby {s : State} {x : Side} (h : s.sel.state.leader = some x ∧ (s.feed x).atEnd = false ∨
    s.sel.state.leader = none ∧ (s.feed x).isStandby = false) : takeEnds s = standbyEnds x.other s := by
  obtain ⟨leads, goes⟩ | ⟨silent, alone⟩ := h
  · simp only [takeEnds, leads, goes, Bool.and_false, Bool.false_eq_true, if_false]
  · simp only [takeEnds, silent]
    cases x with
    | a => rw [standbyEnds_of_not (x := .a) (.inl alone)]; rfl
    | b =>
      refine standbyEnds_of_not (x := .b) (.inl ?_)
      unfold standbyEnds
      split
      · rw [completeFeed_feed, if_neg (by decide)]
        exact alone
      · exact alone

/-- Settles O33: the leader's end, then the standby's. -/
theorem programEnds : Obligations.ProgramEnds := by
  refine ⟨fun f => f.lastNeeded_eq.trans (by cases f.sourceEnd <;> cases f.count <;> rfl),
    fun past own done told hp ho hd ht s x y f g hy hf hg => ?_⟩
  have tells : TellsDone done told :=
    ⟨hd, fun z f q s => (ht z f q s).trans (by cases z <;> cases q <;> rfl)⟩
  have isPast {f : Feed} : past f ↔ f.atEnd = true := (hp f).trans f.atEnd_iff.symm
  have reason {f : Feed} (h : past f) : own f = f.endReason := by rw [ho, Feed.endReason_eq (isPast.mp h)]
  subst hy hf hg
  refine ⟨fun q p t leads ends st other ht => ?_, fun h => ?_⟩
  · have read : (s.feed x).isRead = true := by
      obtain ⟨st, -⟩ | ⟨st, -⟩ := st
      · exact Feed.isRead_of_running st
      · exact Feed.isRead_of_ending st
    have still : (completeFeed x q s).feed x.other = s.feed x.other := by simp
    rw [takeEnds_leader leads read (isPast.mp ends), leaderEnds_eq (st.imp_left fun ⟨run, e⟩ => ⟨run, e.trans (reason ends)⟩)]
    by_cases beside : (s.feed x.other).isRead = true
    · have both : (s.feed x.other).st = .running ∧ p = q ∨ (s.feed x.other).st = .ending ∧ (s.feed x.other).ending = some p := by
        obtain h | h | h := other
        · exact .inl h
        · exact .inr h
        · exact absurd beside (by simp [h])
      rw [completeWith_read (by rw [still]; exact both), tells.completeFeed, still, tells.completeFeed, if_pos beside, ht,
        if_pos beside]
      simp only [tells.told_eq]
      cases x <;> rfl
    · have away : (s.feed x.other).isRead = false := by simpa using beside
      rw [completeWith_unread (by rw [still]; exact away), tells.completeFeed, if_neg beside, ht, if_neg beside,
        Feed.isStandby_of_not_read away, Bool.not_false, Bool.and_true]
      simp only [tells.told_eq]
      cases x <;> rfl
  · rw [takeEnds_standby (h.imp_left fun ⟨leads, goes⟩ => ⟨leads, by simpa [isPast] using goes⟩)]
    refine ⟨fun stands ends => ?_, fun goes => standbyEnds_of_not (goes.imp_right fun goes => by simpa [isPast] using goes)⟩
    rw [standbyEnds, if_pos (by simp [stands, isPast.mp ends]), reason ends, tells.completeFeed, stands,
      Selector.dropped, Bool.not_true, Bool.and_false]

/-! ## O31 -/

theorem sideOf_of_gt {n : Nat} (h : 1 < n) : sideOf n = none := by
  match n, h with
  | k + 2, _ => rfl

theorem sideOf_of_le {n : Nat} (h : n ≤ 1) : ∃ x, sideOf n = some x := by
  obtain rfl | rfl := Nat.le_one_iff_eq_zero_or_eq_one.mp h
  · exact ⟨.a, rfl⟩
  · exact ⟨.b, rfl⟩

/-- The turn is the first awaiting command, once its block event has fallen (R100). -/
theorem Selector.turn_eq_some {v : Selector} {o : AwaitedOrder} (h : v.turn = some o) :
    ∃ rest, v.awaiting = { order := o, due := true } :: rest := by
  unfold Selector.turn at h
  split at h
  next e rest front =>
    split at h
    next due =>
      obtain ⟨order, isDue⟩ := e
      obtain rfl : order = o := Option.some.inj h
      obtain rfl : isDue = true := due
      exact ⟨rest, front⟩
    · cases h
  · cases h

/-- An ONAIR that is not the first, or whose block event has not fallen, is not taken (R100). -/
theorem exec_onairTake_early {s : State}
    (h : ∀ b rest, s.sel.awaiting ≠ { order := .onair b, due := true } :: rest) : exec .onairTake s = .next s := by
  show Host.Outcome.next (onairTake s) = _
  unfold onairTake
  split
  · rfl
  · split
    next b turn =>
      obtain ⟨rest, front⟩ := Selector.turn_eq_some turn
      exact absurd front (h b rest)
    · rfl

/-- An awaiting ONAIR whose turn it is, with no transition over (R100, R101). -/
theorem exec_onairTake {s : State} {b : Byte} {rest : List Awaiting} (line : s.resetLine = false)
    (quiet : s.sel.over = false) (front : s.sel.awaiting = { order := .onair b, due := true } :: rest) :
    exec .onairTake s = .next (onairTaken b { s with sel := { s.sel with awaiting := rest } }) := by
  have turn : s.sel.turn = some (.onair b) := by rw [Selector.turn_cons front]; rfl
  have tail : s.onSel Selector.turnTaken = { s with sel := { s.sel with awaiting := rest } } := by
    rw [State.onSel, Selector.turnTaken, front]
    rfl
  show Host.Outcome.next (onairTake s) = _
  rw [onairTake, if_neg (by simp [line]), turn]
  simp only [turnTake, turn, caughtUp_of_quiet quiet, tail]
  rfl

theorem onairTaken_of {u t : State} {b code : Byte} {res : ResultCode} (steps : onairSteps b.toNat u = (res, t))
    (slot : t.bus.slots.get .system = .executing code) :
    onairTaken b u = t.answered .system code res (onairData res t) := by
  rw [onairTaken, steps]
  exact complete_of_executing slot ..

section OnairSteps

variable {u : State} {x : Side} {feed : Nat} (field : sideOf feed = some x)
include field

theorem onairSteps_onair (state : u.sel.state = .onair x) : onairSteps feed u = (.nothing, u) := by
  simp [onairSteps, field, state]

theorem onairSteps_busy (state : u.sel.state.inTransition = true) : onairSteps feed u = (.busy, u) := by
  cases h : u.sel.state <;> simp_all [onairSteps, SelState.inTransition]

/-- The standby of the feed on air (R101). -/
theorem onairSteps_xfade (state : u.sel.state = .onair x.other) (stands : (u.feed x).isStandby = true)
    (aligned : u.sel.aligned = true) : onairSteps feed u = (.ok, beginXfade x.other u) := by
  simp [onairSteps, field, state, (Side.ne_other x).symm, stands, aligned]

theorem onairSteps_notAligned (state : u.sel.state = .onair x.other)
    (h : (u.feed x).isStandby = false ∨ u.sel.aligned = false) : onairSteps feed u = (.notAligned, u) := by
  simp only [onairSteps, field, state, (Side.ne_other x).symm, if_false]
  rw [if_neg]
  obtain h | h := h <;> simp [h]

theorem onairSteps_silent_none (state : u.sel.state = .silent) (h : (u.feed x).isStandby = false) :
    onairSteps feed u = (.notAligned, u) := by
  simp [onairSteps, field, state, h]

/-- The standby rises in SILENT, repositioned unless it is aligned (R71, R101). -/
theorem onairSteps_silent (state : u.sel.state = .silent) (h : (u.feed x).isStandby = true) :
    onairSteps feed u = (.ok,
      (beginRise x (if u.sel.aligned then u else u.onFeed x Feed.repositioned)).onSel fun v =>
        { v with aligned := false }) := by
  simp only [onairSteps, field, state, h, if_true]

end OnairSteps

/-- Settles O31: how it waits, and its steps by the selector's state. -/
theorem onAir : Obligations.OnAir := by
  refine ⟨fun s addr feed hs => ?_, fun s early => exec_onairTake_early early,
    fun s u b code rest line quiet front slot hu => ?_⟩
  · rw [exec_system_served (i := .onair addr [feed]) rfl hs (by decide) (by simp) rfl, handedOver, caughtUp_bus]
    show Host.Outcome.next (onair [feed] _) = _
    rw [onair, State.onSel, ← caughtUp_blockDue s]
    rfl
  have slot' : u.bus.slots.get .system = .executing code := by rw [hu]; exact slot
  have taken {res : ResultCode} {t : State} (steps : onairSteps b.toNat u = (res, t)) (same : t.bus = u.bus) :
      exec .onairTake s = .next (t.answered .system code res (onairData res t)) := by
    rw [exec_onairTake line quiet front, ← hu, onairTaken_of steps (same ▸ slot')]
  have feeds (x : Side) : u.feed x = s.feed x := by rw [hu]; cases x <;> rfl
  have state : u.sel.state = s.sel.state := by rw [hu]
  have flag : u.sel.aligned = s.sel.aligned := by rw [hu]
  have policy : u.sel.policyKx = s.sel.policyKx := by rw [hu]
  clear hu
  refine ⟨fun bad => ?_, fun good moving => ?_, fun x hb => ?_⟩
  · exact taken (by rw [onairSteps, sideOf_of_gt bad]) rfl
  · obtain ⟨x, field⟩ := sideOf_of_le good
    exact taken (onairSteps_busy field (state ▸ moving)) rfl
  have field : sideOf b.toNat = some x := by rw [hb]; cases x <;> rfl
  rw [← state, ← flag, ← policy]
  refine ⟨fun on => taken (onairSteps_onair field on) rfl, fun on => ⟨fun stands aligned => ?_, fun alone => ?_⟩,
    fun silent => ⟨fun alone => ?_, fun stands => ⟨if u.sel.aligned then (u.feed x).rs else (u.feed x).repositioned.rs,
      ?_, fun a => ?_, fun a => ?_⟩⟩⟩
  · rw [taken (onairSteps_xfade field on (by rw [feeds]; exact stands) aligned) rfl, ← feeds, ← feeds]
    cases x <;> rfl
  · exact taken (onairSteps_notAligned field on (by rw [feeds]; exact alone)) rfl
  · exact taken (onairSteps_silent_none field silent (by rw [feeds]; exact alone)) rfl
  · rw [taken (onairSteps_silent field silent (by rw [feeds]; exact stands)) (by split <;> rfl), ← feeds]
    cases u.sel.aligned <;> cases x <;> rfl
  · rw [if_pos a, feeds]
  · rw [if_neg (by simp [a]), feeds]
    rfl

/-! ## O32 -/

/-- PRIMED feeds in SILENT: both, or one alone (R92). -/
theorem takePrimed_silent {s : State} {x : Side} (state : s.sel.state = .silent) (primed : (s.feed x).st = .primed) :
    takePrimed s = if (s.feed x.other).st = .primed then
      takeStandby s.sel.preferred.other (beginRise s.sel.preferred s) else beginRise x s := by
  simp only [takePrimed, state]
  cases x with
  | a =>
    have ha : s.feedA.st = .primed := primed
    by_cases hb : s.feedB.st = .primed
    · simp only [ha, hb, beq_self_eq_true]
      exact (if_pos hb).symm
    · simp only [ha, beq_self_eq_true, beq_eq_false_iff_ne.mpr hb]
      exact (if_neg hb).symm
  | b =>
    have hb : s.feedB.st = .primed := primed
    by_cases ha : s.feedA.st = .primed
    · simp only [ha, hb, beq_self_eq_true]
      exact (if_pos ha).symm
    · simp only [hb, beq_self_eq_true, beq_eq_false_iff_ne.mpr ha]
      exact (if_neg ha).symm

theorem takePrimed_beside {s : State} {l : Side} (state : s.sel.state = .onair l ∨ s.sel.state = .rise l)
    (primed : (s.feed l.other).st = .primed) : takePrimed s = takeStandby l.other s := by
  obtain state | state := state <;> simp [takePrimed, state, primed]

theorem takePrimed_moving {s : State} {z : Side} (state : s.sel.state = .fade z ∨ s.sel.state = .xfade z) :
    takePrimed s = s := by
  obtain state | state := state <;> simp [takePrimed, state]

/-- Every block that the window touches is GOOD in the ring (R91). -/
theorem Feed.windowGood_iff (f : Feed) (i : Nat) : f.windowGood i = true ↔ 4 ≤ i ∧
    ∀ b, (i - 4) / 32 ≤ b → b ≤ (i + 64) / 32 →
      (f.slotAt (32 * b)).stamp = some (32 * b) ∧ (f.slotAt (32 * b)).state = .good := by
  have holds (b : Nat) : f.holdsGood b = true ↔
      (f.slotAt (32 * b)).stamp = some (32 * b) ∧ (f.slotAt (32 * b)).state = .good := by simp [Feed.holdsGood]
  simp only [Feed.windowGood, Bool.and_eq_true, decide_eq_true_eq, List.all_eq_true, List.mem_range, holds]
  refine and_congr_right fun _ => ⟨fun h b lo hi => ?_, fun h k hk => h _ (by omega) (by omega)⟩
  have := h (b - (i - 4) / 32) (by omega)
  rwa [Nat.add_sub_cancel' lo] at this

theorem State.judgesAligned_iff (s : State) (y : Side) : s.judgesAligned y = true ↔ 4 ≤ s.sel.pos ∧
    (∀ l, s.sel.state.leader = some l → (s.feed y).rs.rNom = (s.feed l).rs.rNom ∧
      (s.feed y).setup.n = (s.feed l).setup.n) ∧
    ∀ b, (s.sel.pos - 4) / 32 ≤ b → b ≤ (s.sel.pos + 64) / 32 →
      ((s.feed y).slotAt (32 * b)).stamp = some (32 * b) ∧ ((s.feed y).slotAt (32 * b)).state = .good := by
  rw [State.judgesAligned, Bool.and_eq_true, Feed.windowGood_iff, and_left_comm]
  refine and_congr_right fun _ => and_congr_left fun _ => ?_
  cases s.sel.state.leader <;> simp

/-- The aligned flag is set, and ALIGN raised, where it changes (R91). -/
theorem setAligned_eq (y : Side) (v : Bool) (s : State) : setAligned y v s =
    if v = s.sel.aligned then s
    else raise .align ([BitVec.ofNat 8 y.code, if v then 1 else 0] ++ be 2 (s.sel.pos % 65536))
      { s with sel := { s.sel with aligned := v } } := by
  split
  next same =>
    subst same
    simp [setAligned, raiseIf, State.onSel]
  next new =>
    have changes : (s.sel.aligned != v) = true := by simpa using Ne.symm new
    rw [setAligned, changes]
    cases y <;> cases v <;> rfl

theorem judgeAlignment_standby {s : State} {y : Side} (stands : s.standby = some y) (judged : s.sel.fresh = false) :
    judgeAlignment s = setAligned y (s.judgesAligned y) s := by
  simp [judgeAlignment, stands, judged]

theorem judgeAlignment_none {s : State} (h : s.sel.fresh = true ∨ s.standby = none) :
    judgeAlignment s = { s with sel := { s.sel with fresh := false } } := by
  unfold judgeAlignment
  split
  next y stands =>
    obtain h | h := h
    · rw [if_pos h]
      rfl
    · simp [stands] at h
  · rfl

/-- Settles O32: the offers, then the judgements. -/
theorem standbyJudged : Obligations.StandbyJudged := by
  refine ⟨?_, fun v pos phase => rfl, fun s y v stands judged hv => ?_, fun s h => judgeAlignment_none h, ?_⟩
  · rintro s x y rfl primed
    refine ⟨fun state first => ?_, fun state both preferred => ?_, fun state => ?_, fun ⟨z, state⟩ =>
      takePrimed_moving state⟩
    · rw [takePrimed_silent state primed]
      split
      next both =>
        have preferred : s.sel.preferred = x := first.resolve_left fun h => h both
        rw [preferred]
        exact ⟨rfl, rfl, rfl, by simp⟩
      · exact ⟨rfl, rfl, rfl, by simp⟩
    · rw [takePrimed_silent state primed, if_pos both, preferred]
      exact ⟨by simp [Selector.start], rfl, rfl⟩
    · rw [takePrimed_beside (by exact state) (by simpa using primed), Side.other_other]
      cases x <;> rfl
  · rw [judgeAlignment_standby stands judged, setAligned_eq,
      show s.judgesAligned y = v from Bool.eq_iff_iff.mpr ((s.judgesAligned_iff y).trans hv.symm)]
  · rintro s x y rfl
    refine ⟨fun state unheard stands => ?_, fun h => ?_⟩
    · simp only [riseUnaligns, state, unheard, stands, and_self, if_true, setAligned_eq, eq_comm (a := false)]
      rfl
    · unfold riseUnaligns
      split
      next z state =>
        obtain h | ⟨rise, h⟩ := h
        · exact absurd state (h z)
        · obtain rfl : x = z := by simpa [rise] using state
          rw [if_neg]
          obtain h | h := h <;> simp [h]
      · rfl

end Sys2Proof.Machine
end

section
/-!
O17, O18, O26, O27: the servo, the advance, and the pace and watch of a feed.
-/

namespace Sys2Proof.Machine

open Sys2Proof
/-! ## O26 -/

/-- A shift right is a floor division (R73, R82). -/
theorem shiftRight_eq_div (a : Int) (n : Nat) : a >>> (n : Int) = a / 2 ^ n := by
  rw [Int.shiftRight_natCast_right, Int.shiftRight_eq_div_pow]
  norm_cast

/-- The integrator's sum, before its clamp (R73). -/
theorem Resampler.servo_acc (v : Resampler) (fill target : Nat) :
    (v.servo fill target).acc = max (-1048576) (min 1048575 (v.acc + ((fill : Int) - target))) := rfl

/-- The ratio of a servo step: the offset from nominal, cut at the clamp (R73). -/
theorem Resampler.servo_cut (v : Resampler) (fill target : Nat) {offset : Int}
    (h : offset = ((fill : Int) - target) * 64 + (v.servo fill target).acc / 16) :
    (v.servo fill target).r =
        ((v.rNom : Int) + max (-((v.rNom / 512 : Nat) : Int)) (min ((v.rNom / 512 : Nat) : Int) offset)).toNat ∧
      (v.servo fill target).clamped =
        (max (-((v.rNom / 512 : Nat) : Int)) (min ((v.rNom / 512 : Nat) : Int) offset) != offset) := by
  have shift : (v.servo fill target).acc >>> (4 : Int) = (v.servo fill target).acc / 16 := shiftRight_eq_div _ 4
  rw [h, ← shift]
  exact ⟨rfl, rfl⟩

/-- The servo runs for the feed that leads at this moment, if it is streaming (R72, R73). -/
theorem servoStep_leader {s : State} {x : Side} {w : Resampler} (leads : s.sel.servoLeader = some x)
    (hw : w = (s.feed x).rs.servo ((s.feed x).h - (s.feed x).rs.i) (2 ^ (s.feed x).setup.dExp / 2))
    (read : (s.feed x).isRead = true) (mode : (s.feed x).setup.mode = .streaming) :
    servoStep s =
      if w.clamped then
        raise .tracklimit ([BitVec.ofNat 8 x.code, if (s.feed x).rs.rNom < w.r then 0 else 1] ++ beInt 2 w.servoErr)
          (s.setFeed x { s.feed x with rs := w })
      else s.setFeed x { s.feed x with rs := w } := by
  have side : be 1 (if ((s.feed x).rs.rNom : Int) < w.r then 0 else 1) =
      [if (s.feed x).rs.rNom < w.r then 0 else 1] := by
    simp only [Nat.cast_lt]
    split <;> rfl
  have bytes : be 1 x.code ++ be 1 (if ((s.feed x).rs.rNom : Int) < w.r then 0 else 1) ++ beInt 2 w.servoErr =
      [BitVec.ofNat 8 x.code, if (s.feed x).rs.rNom < w.r then 0 else 1] ++ beInt 2 w.servoErr := by
    rw [side, be_one]
    rfl
  simp only [servoStep, leads, read, mode, and_self, if_true]
  rw [← bytes, ← raiseIf_eq, hw]
  rfl

theorem servoStep_paced {s : State} {x : Side} (leads : s.sel.servoLeader = some x)
    (mode : (s.feed x).setup.mode ≠ .streaming) : servoStep s = s := by
  simp [servoStep, leads, mode]

theorem servoStep_none {s : State} (h : s.sel.servoLeader = none) : servoStep s = s := by
  simp only [servoStep, h]

/-- Settles O26. -/
theorem servo_holds : Obligations.Servo := by
  refine ⟨?_, fun s x w leads hw => ?_, fun s h => servoStep_none ?_⟩
  · rintro v w fill target offset rfl ho
    obtain ⟨ratio, clamped⟩ := v.servo_cut fill target ho
    have acc := v.servo_acc fill target
    have err : (v.servo fill target).servoErr = (fill : Int) - target := rfl
    rw [ratio, clamped, acc, err]
    have low : v.rNom / 512 ≤ v.rNom := Nat.div_le_self ..
    refine ⟨rfl, ?_, ?_, fun lo hi => ?_, fun hi => ?_, fun lo => ?_, rfl, fun lo hi => ?_, fun hi => ?_, fun lo => ?_⟩
    all_goals generalize v.rNom / 512 = limit at *
    · omega
    · omega
    · omega
    · omega
    · omega
    · rw [min_eq_right hi, max_eq_right lo]
      exact ⟨by simp, by omega⟩
    · rw [min_eq_left hi.le, max_eq_right (by omega)]
      exact ⟨by simpa using hi.ne, by omega⟩
    · rw [min_eq_right (by omega), max_eq_left lo.le]
      exact ⟨by simpa using lo.ne', by omega⟩
  · have leader : s.sel.servoLeader = some x := by
      unfold Selector.servoLeader
      obtain h | h | ⟨h, n⟩ | ⟨h, n⟩ | ⟨h, n⟩ := leads <;> simp [*]
    exact ⟨fun read mode => servoStep_leader leader hw read mode, servoStep_paced leader⟩
  · unfold Selector.servoLeader
    obtain h | ⟨x, h, n⟩ := h <;> simp [*]

/-! ## What a house sample's work leaves of the read positions (R69 to R71) -/

/-- A feed's position, ratio, integrator, state and pace. -/
def Feed.course (f : Feed) : Nat × Nat × Nat × Int × FeedState × Pace :=
  (f.rs.i, f.rs.phi, f.rs.r, f.rs.acc, f.st, f.pace)

/-- Both feeds' courses, with the selector's state, the position that it publishes and the feed last heard. -/
def State.course (s : State) : (Side → Nat × Nat × Nat × Int × FeedState × Pace) × SelState × Nat × Nat × Option Side :=
  (fun x => (s.feed x).course, s.sel.state, s.sel.pos, s.sel.phase, s.sel.lastHeard)

theorem State.onFeed_course {s : State} {x : Side} {g : Feed → Feed} (h : ∀ f, (g f).course = f.course) :
    (s.onFeed x g).course = s.course := by
  refine Prod.ext (funext fun y => ?_) rfl
  show ((s.onFeed x g).feed y).course = (s.feed y).course
  rw [State.feed_onFeed]
  split
  next e => rw [h, e]
  · rfl

@[simp] theorem raise_course (k : Kind) (d : List Byte) (s : State) : (raise k d s).course = s.course := by
  refine Prod.ext (funext fun y => ?_) rfl
  cases y <;> rfl

theorem foldl_course {α : Type} {f : State → α → State} (h : ∀ s a, (f s a).course = s.course) (l : List α) (s : State) :
    (l.foldl f s).course = s.course :=
  foldl_keeps (P := fun u => u.course = s.course) (fun u a hu => (h u a).trans hu) l rfl

@[simp] theorem noteUnderrun_course (s : State) : (noteUnderrun s).course = s.course := by
  unfold noteUnderrun
  split
  · rfl
  · split
    · rfl
    · split
      · rw [raise_course]
        exact State.onFeed_course fun _ => rfl
      · rfl

@[simp] theorem riseUnaligns_course (s : State) : (riseUnaligns s).course = s.course := by
  unfold riseUnaligns
  split
  · split
    · rw [setAligned_eq]
      split
      · rfl
      · exact raise_course ..
    · rfl
  · rfl

@[simp] theorem markFails_course (fails : List RingFail) (s : State) : (markFails fails s).course = s.course :=
  foldl_course (f := fun s e => markFail e s) (fun u e => by
    rw [markFail, raise_course]
    exact State.onFeed_course fun _ => rfl) fails s

@[simp] theorem rampStep_course (s : State) : (rampStep s).course = s.course := rfl

@[simp] theorem outputStage_course (passing : List Access) (inputs : List Int) (s : State) :
    (outputStage passing inputs s).course = s.course := by
  have clip (sats : List Saturation) (u : State) : (raiseClip sats u).course = u.course := by
    unfold raiseClip
    split
    · rfl
    · exact raise_course ..
  have faults (failed : List (Nat × Nat)) (u : State) : (raiseLineFaults failed u).course = u.course :=
    foldl_course (fun _ _ => raise_course ..) failed u
  unfold outputStage
  dsimp only
  rw [clip, faults]
  rfl

@[simp] theorem markBlock_course (s : State) : (markBlock s).course = s.course := by
  have falls : (blockFalls s).course = s.course := by
    refine Prod.ext (funext fun y => ?_) rfl
    show ((blockFalls s).feed y).course = _
    rw [blockFalls_feed]
    split <;> rfl
  unfold markBlock
  split
  · exact falls
  · rfl

/-- What the ends of a house sample leave: a feed that was read may complete, and the selector keeps the position (R55,
R103). -/
structure EndsAs (s t : State) : Prop where
  feed : ∀ x, t.feed x = s.feed x ∨ (s.feed x).isRead = true ∧ ∃ q, t.feed x = (s.feed x).completed q
  sel : (t.sel.pos, t.sel.phase, t.sel.lastHeard) = (s.sel.pos, s.sel.phase, s.sel.lastHeard)

theorem EndsAs.refl (s : State) : EndsAs s s := ⟨fun _ => .inl rfl, rfl⟩

theorem EndsAs.completeFeed {s t : State} (h : EndsAs s t) {x : Side} (read : (t.feed x).isRead = true) (q : Reason) :
    EndsAs s (completeFeed x q t) := by
  refine ⟨fun y => ?_, h.sel⟩
  rw [completeFeed_feed]
  split
  next e =>
    subst e
    obtain same | ⟨-, p, done⟩ := h.feed y
    · rw [same] at read ⊢
      exact .inr ⟨read, q, rfl⟩
    · rw [done] at read
      cases read
  · exact h.feed y

theorem EndsAs.standbyEnds {s t : State} (h : EndsAs s t) (x : Side) : EndsAs s (standbyEnds x t) := by
  unfold Machine.standbyEnds
  split
  next ends =>
    rw [Bool.and_eq_true] at ends
    exact h.completeFeed (Feed.isRead_of_isStandby ends.1) _
  · exact h

theorem EndsAs.completeWith {s t : State} (h : EndsAs s t) (x : Side) (q : Reason) : EndsAs s (completeWith x q t) := by
  unfold Machine.completeWith
  split
  next st => exact h.completeFeed (Feed.isRead_of_running st) _
  next st => exact h.completeFeed (Feed.isRead_of_ending st) _
  · exact h

theorem takeEnds_endsAs (s : State) : EndsAs s (takeEnds s) := by
  unfold takeEnds
  split
  · exact ((EndsAs.refl s).standbyEnds .a).standbyEnds .b
  next x leads =>
    split
    next ends =>
      rw [Bool.and_eq_true] at ends
      have both := ((EndsAs.refl s).completeFeed ends.1
        (if (s.feed x).st = .ending then (s.feed x).ending.getD .stopped else (s.feed x).endReason)).completeWith x.other
          (if (s.feed x).st = .ending then (s.feed x).ending.getD .stopped else (s.feed x).endReason)
      exact ⟨fun y => by rw [leaderEnds, enterSilent_feed]; exact both.feed y, both.sel⟩
    · exact (EndsAs.refl s).standbyEnds _

/-- The state of a house sample event in which the feeds' values are read: the counter and the pace states have moved,
and a crossfade has handed its ratio on (R8, R26, R71). -/
def State.paced (s : State) : State :=
  { s with clock := s.clock.sampled, feedA := s.feedA.paceSample false, feedB := s.feedB.paceSample false }

/-- The selector's count of a house sample (R89, R98, R105). -/
theorem Selector.counted_hears (v : Selector) : v.counted.hears = { v with
    n := if v.state.inTransition = true ∧ v.abandoned = false then v.n + 1 else v.n
    j := if v.state.inTransition = true ∧ v.abandoned = true then v.j + 1 else v.j
    lastHeard := v.hears.lastHeard } := by
  unfold Selector.hears Selector.counted
  by_cases moving : v.state.inTransition = true
  · cases v.abandoned <;> simp [moving]
  · simp [moving]

theorem Selector.hears_lastHeard_congr {v w : Selector} (state : v.state = w.state) (heard : v.lastHeard = w.lastHeard) :
    v.hears.lastHeard = w.hears.lastHeard := by
  unfold Selector.hears
  rw [state, heard]

theorem counted_course {s t : State} (h : s.course = t.course) :
    (s.onSel fun v => v.counted.hears).course = (t.onSel Selector.hears).course := by
  obtain ⟨feeds, state, pos, phase, heard⟩ : _ ∧ _ ∧ _ ∧ _ ∧ _ := by
    simpa only [State.course, Prod.mk.injEq] using h
  have counted : s.sel.counted.hears.lastHeard = t.sel.hears.lastHeard := by
    rw [Selector.counted_hears]
    exact Selector.hears_lastHeard_congr state heard
  have moved : (s.onSel fun v => v.counted.hears).sel = _ := Selector.counted_hears s.sel
  simp only [State.course, Prod.mk.injEq, State.feed_onSel]
  refine ⟨feeds, ?_, ?_, ?_, counted⟩ <;> rw [moved]
  · exact state
  · exact pos
  · exact phase

/-- A house sample event of RUNNING, step by step (R8). -/
theorem houseSample_running {s : State} (line : s.resetLine = false) (phase : s.clock.phase = .running)
    (reads : SampleReads) : houseSample reads s = markBlock (outputStage reads.passing
      ((inheritRatio s.paced).programInputs ((inheritRatio s.paced).feedValues reads .a)
        ((inheritRatio s.paced).feedValues reads .b))
      (rampStep (programStep ((inheritRatio s.paced).feedValues reads .a) ((inheritRatio s.paced).feedValues reads .b)
        (inheritRatio s.paced)))) := by
  have runs : ({ s with clock := s.clock.sampled } : State).starting = false := by
    show (s.clock.phase == .starting) = false
    rw [phase]
    rfl
  rw [houseSample, if_neg (by simp [line]), makeSample, sampleWork, runs]
  rfl

/-! ## The advance (R69, R70) -/

/-- An underrun leaves a feed but for its mark (R80). -/
theorem noteUnderrun_feed (s : State) (x : Side) :
    ∃ b, (noteUnderrun s).feed x = { s.feed x with rs := { (s.feed x).rs with underrun := b } } := by
  unfold noteUnderrun
  split
  · exact ⟨_, rfl⟩
  · split
    · exact ⟨_, rfl⟩
    · split
      next y _ t _ _ =>
        rw [State.feed_raise, State.feed_onFeed]
        split
        next e => exact ⟨true, e ▸ rfl⟩
        · exact ⟨_, rfl⟩
      · exact ⟨_, rfl⟩

theorem Resampler.advanced_underrun (v : Resampler) (b : Bool) :
    ({ v with underrun := b } : Resampler).advanced = { v.advanced with underrun := b } := by
  unfold Resampler.advanced
  dsimp only
  split
  · rfl
  · split <;> rfl

theorem Feed.follow_underrun (f : Feed) (b : Bool) (pos phase : Nat) :
    (({ f with rs := { f.rs with underrun := b } } : Feed).follow pos phase).course = (f.follow pos phase).course := by
  unfold Feed.follow
  show (Feed.course { f with rs := if f.isRead then _ else _ }) = _
  split <;> rfl

/-- The underrun mark does not move the read positions (R69, R80). -/
theorem advancePositions_underrun (s : State) :
    (advancePositions (noteUnderrun s)).course = (advancePositions s).course := by
  have sel := noteUnderrun_sel s
  have follows (x : Side) (pos phase : Nat) :
      (((noteUnderrun s).feed x).follow pos phase).course = ((s.feed x).follow pos phase).course := by
    obtain ⟨b, hb⟩ := noteUnderrun_feed s x
    rw [hb, Feed.follow_underrun]
  cases leads : s.sel.state.leader with
  | none =>
    have silent : s.sel.state = .silent := by cases h : s.sel.state <;> simp [h, SelState.leader] at leads ⊢
    obtain ⟨feeds, still⟩ := advancePositions_silent (s := s) silent
    obtain ⟨feeds', still'⟩ := advancePositions_silent (s := noteUnderrun s) (by rw [sel]; exact silent)
    refine Prod.ext (funext fun y => ?_) (by simp [State.course, still, still'])
    show ((advancePositions (noteUnderrun s)).feed y).course = ((advancePositions s).feed y).course
    rw [feeds, feeds', sel]
    exact follows ..
  | some l =>
    obtain ⟨b, hb⟩ := noteUnderrun_feed s l
    obtain ⟨lead, other, moved⟩ := advancePositions_leader (s := s) leads
    obtain ⟨lead', other', moved'⟩ := advancePositions_leader (s := noteUnderrun s) (by rw [sel]; exact leads)
    have same : ((noteUnderrun s).feed l).rs.advanced = { (s.feed l).rs.advanced with underrun := b } := by
      rw [hb]
      exact Resampler.advanced_underrun ..
    rw [same] at lead' other' moved'
    refine Prod.ext (funext ((Side.forall_iff l).mpr ⟨?_, ?_⟩)) (by simp [State.course, moved, moved'])
    · show (((advancePositions (noteUnderrun s)).feed l).course = ((advancePositions s).feed l).course)
      rw [lead, lead', hb]
      rfl
    · show (((advancePositions (noteUnderrun s)).feed l.other).course = ((advancePositions s).feed l.other).course)
      rw [other, other']
      exact follows ..

/-- The course that a house sample event of RUNNING sets: that of the advance, but for the feeds that end at it. -/
theorem houseSample_course {s : State} (line : s.resetLine = false) (phase : s.clock.phase = .running)
    (reads : SampleReads) : ∃ w : State,
      w.course = ((advancePositions (inheritRatio s.paced)).onSel Selector.hears).course ∧
        EndsAs w (takeEnds w) ∧ (houseSample reads s).course = (takeEnds w).course := by
  rw [houseSample_running line phase, programStep]
  refine ⟨_, ?_, takeEnds_endsAs _, by rw [markBlock_course, outputStage_course, rampStep_course]⟩
  exact counted_course (by rw [markFails_course, riseUnaligns_course, advancePositions_underrun])

/-- A feed's position, ratio and integrator. -/
def Feed.track (f : Feed) : Nat × Nat × Nat × Int := (f.rs.i, f.rs.phi, f.rs.r, f.rs.acc)

theorem Feed.track_of_course {f g : Feed} (h : f.course = g.course) : f.track = g.track := by
  have := congrArg (fun c : Nat × Nat × Nat × Int × FeedState × Pace => (c.1, c.2.1, c.2.2.1, c.2.2.2.1)) h
  exact this

/-- Where a house sample event of RUNNING leaves the read positions (R69 to R71, R105). -/
theorem houseSample_tracks {s : State} (line : s.resetLine = false) (phase : s.clock.phase = .running)
    (reads : SampleReads) :
    (∀ x, ((houseSample reads s).feed x).track = ((advancePositions (inheritRatio s.paced)).feed x).track) ∧
      (houseSample reads s).sel.pos = (advancePositions (inheritRatio s.paced)).sel.pos ∧
      (houseSample reads s).sel.phase = (advancePositions (inheritRatio s.paced)).sel.phase ∧
      (houseSample reads s).sel.lastHeard = (advancePositions (inheritRatio s.paced)).sel.hears.lastHeard := by
  obtain ⟨w, course, ends, final⟩ := houseSample_course line phase reads
  simp only [State.course, Prod.mk.injEq, State.feed_onSel, funext_iff] at course final
  obtain ⟨feeds, -, pos, phase, heard⟩ := course
  obtain ⟨feeds', -, pos', phase', heard'⟩ := final
  have sel := ends.sel
  simp only [Prod.mk.injEq] at sel
  obtain ⟨epos, ephase, eheard⟩ := sel
  refine ⟨fun x => ?_, pos'.trans (epos.trans pos), phase'.trans (ephase.trans phase),
    heard'.trans (eheard.trans heard)⟩
  rw [Feed.track_of_course (feeds' x), ← Feed.track_of_course (feeds x)]
  obtain same | ⟨-, q, done⟩ := ends.feed x
  · rw [same]
  · rw [done]
    rfl

@[simp] theorem State.paced_feed (s : State) (x : Side) : s.paced.feed x = (s.feed x).paceSample false := by
  cases x <;> rfl

theorem Feed.paceSample_eq (f : Feed) (starting : Bool) :
    f.paceSample starting = { f with pace := (f.paceSample starting).pace } := by
  unfold Feed.paceSample
  split
  · rfl
  · split
    · rfl
    · split
      · rfl
      · split <;> rfl
    · split
      · rfl
      · split
        · rfl
        · split
          · rfl
          · split <;> rfl

/-- The advance moves resamplers alone (R69, R70). -/
theorem advancePositions_feed (s : State) (x : Side) : ∃ v, (advancePositions s).feed x = { s.feed x with rs := v } := by
  cases leads : s.sel.state.leader with
  | none =>
    have silent : s.sel.state = .silent := by cases h : s.sel.state <;> simp [h, SelState.leader] at leads ⊢
    exact ⟨_, (advancePositions_silent silent).1 x⟩
  | some l =>
    obtain ⟨lead, other, -⟩ := advancePositions_leader (s := s) leads
    obtain rfl | rfl := Side.eq_or_eq_other x l
    · exact ⟨_, lead⟩
    · exact ⟨_, other⟩

/-- So does the ratio that a crossfade hands on (R71). -/
theorem inheritRatio_feed (s : State) (x : Side) : ∃ v, (inheritRatio s).feed x = { s.feed x with rs := v } := by
  unfold inheritRatio
  split
  · split
    · rw [State.feed_onFeed]
      split
      next e =>
        subst e
        exact ⟨_, rfl⟩
      · exact ⟨_, rfl⟩
    · exact ⟨_, rfl⟩
  · exact ⟨_, rfl⟩

/-- A feed's state and pace after a house sample event of RUNNING (R26, R28, R57). -/
theorem houseSample_paces {s : State} (line : s.resetLine = false) (phase : s.clock.phase = .running)
    (reads : SampleReads) (x : Side) :
    (((houseSample reads s).feed x).st = (s.feed x).st ∧
        ((houseSample reads s).feed x).pace = ((s.feed x).paceSample false).pace) ∨
      (s.feed x).isRead = true ∧ ((houseSample reads s).feed x).st = .complete ∧
        ((houseSample reads s).feed x).pace = paceIdle := by
  obtain ⟨w, course, ends, final⟩ := houseSample_course line phase reads
  simp only [State.course, Prod.mk.injEq, State.feed_onSel, funext_iff] at course final
  obtain ⟨v, advanced⟩ := advancePositions_feed (inheritRatio s.paced) x
  obtain ⟨u, inherited⟩ := inheritRatio_feed s.paced x
  rw [inherited, State.paced_feed, Feed.paceSample_eq] at advanced
  have before := course.1 x
  have after := final.1 x
  rw [advanced] at before
  simp only [Feed.course, Prod.mk.injEq] at before after
  obtain ⟨-, -, -, -, st, pace⟩ := before
  obtain ⟨-, -, -, -, st', pace'⟩ := after
  obtain same | ⟨read, q, done⟩ := ends.feed x
  · rw [same] at st' pace'
    exact .inl ⟨st'.trans st, pace'.trans pace⟩
  · rw [done] at st' pace'
    refine .inr ⟨?_, st', pace'⟩
    rw [Feed.isRead, st] at read
    exact read

/-! ## O27 -/

/-- An advance (R69). -/
theorem Resampler.advanced_spec {v : Resampler} (hi : v.i < 2 ^ 40) (hphi : v.phi < 2 ^ 28) :
    (v.held = false → v.i * 2 ^ 28 + v.phi + v.r < 2 ^ 68 →
      v.advanced.i * 2 ^ 28 + v.advanced.phi = v.i * 2 ^ 28 + v.phi + v.r ∧ v.advanced.held = false) ∧
    (v.held = false → 2 ^ 68 ≤ v.i * 2 ^ 28 + v.phi + v.r →
      v.advanced.i = 2 ^ 40 - 1 ∧ v.advanced.phi = 0 ∧ v.advanced.held = true) ∧
    (v.held = true → v.advanced = v) ∧ v.advanced.i < 2 ^ 40 ∧ v.advanced.phi < 2 ^ 28 := by
  have unity : Config.ratioUnity = 268435456 := rfl
  have last : Config.posEnd - 1 = 1099511627775 := rfl
  unfold Resampler.advanced
  rw [unity, last]
  split
  next held => exact ⟨fun free => by simp [held] at free, fun free => by simp [held] at free, fun _ => rfl, hi, hphi⟩
  next free =>
    have free : v.held = false := by simpa using free
    split
    next far => exact ⟨fun _ near => absurd near (by omega), fun _ _ => ⟨rfl, rfl, rfl⟩, fun h => by simp [free] at h,
      by simp, by simp⟩
    next near =>
      refine ⟨fun _ _ => ⟨?_, free⟩, fun _ far => absurd far (by omega), fun h => by simp [free] at h, ?_, ?_⟩ <;>
        dsimp only <;> omega

theorem Selector.hears_leader {v : Selector} {l : Side} (leads : v.state.leader = some l) :
    v.hears.lastHeard = some l := by simp [Selector.hears, leads]

/-- The advance of a house sample with a leader: it goes on, and the other feed takes its position (R69, R70). -/
theorem advancePositions_tracks {s : State} {l : Side} (leads : s.sel.state.leader = some l) :
    (advancePositions s).sel.hears.lastHeard = some l ∧
      (advancePositions s).sel.pos = (s.feed l).rs.advanced.i ∧
      (advancePositions s).sel.phase = (s.feed l).rs.advanced.phi ∧
      ((advancePositions s).feed l).track = ((s.feed l).rs.advanced.i, (s.feed l).rs.advanced.phi, (s.feed l).rs.r,
        (s.feed l).rs.acc) ∧
      ((advancePositions s).feed l.other).track = if (s.feed l.other).isRead then
        ((s.feed l).rs.advanced.i, (s.feed l).rs.advanced.phi, (s.feed l.other).rs.r, (s.feed l.other).rs.acc)
      else (s.feed l.other).track := by
  obtain ⟨lead, other, sel⟩ := advancePositions_leader leads
  have kept : (s.feed l).rs.advanced.r = (s.feed l).rs.r ∧ (s.feed l).rs.advanced.acc = (s.feed l).rs.acc := by
    unfold Resampler.advanced
    split
    · exact ⟨rfl, rfl⟩
    · split <;> exact ⟨rfl, rfl⟩
  rw [lead, other, sel]
  refine ⟨Selector.hears_leader (by exact leads), rfl, rfl, ?_, ?_⟩
  · rw [Feed.track, kept.1, kept.2]
  · unfold Feed.follow
    split <;> rfl

@[simp] theorem Feed.paceSample_rs (f : Feed) (starting : Bool) : (f.paceSample starting).rs = f.rs := by
  rw [Feed.paceSample_eq]

@[simp] theorem Feed.paceSample_isRead (f : Feed) (starting : Bool) : (f.paceSample starting).isRead = f.isRead := by
  rw [Feed.paceSample_eq]
  rfl

@[simp] theorem Feed.paceSample_setup (f : Feed) (starting : Bool) : (f.paceSample starting).setup = f.setup := by
  rw [Feed.paceSample_eq]

/-- The ratio is handed on at a crossfade's first house sample alone (R71). -/
theorem inheritRatio_of_begun {s : State} (h : ∀ x, s.sel.state = .xfade x → s.sel.formed ≠ 0) : inheritRatio s = s := by
  unfold inheritRatio
  split
  next x state => exact if_neg (h x state)
  · rfl

@[simp] theorem inheritRatio_sel (s : State) : (inheritRatio s).sel = s.sel := by
  unfold inheritRatio
  split
  · split <;> rfl
  · rfl

/-- The ratio that a crossfade's incoming feed begins with (R71). -/
theorem inheritRatio_incoming {s : State} {x : Side} (state : s.sel.state = .xfade x) (begins : s.sel.formed = 0) :
    (inheritRatio s).feed x.other = { s.feed x.other with
      rs := if (s.feed x.other).setup.mode = .streaming then
          { (s.feed x.other).rs with r := (s.feed x).rs.r, acc := (s.feed x).rs.acc }
        else { (s.feed x.other).rs with r := (s.feed x.other).rs.rNom, acc := 0 } } := by
  simp [inheritRatio, state, begins]

/-- Settles O27: the advance, what a house sample event does to the positions, and the event step by step. -/
theorem readPositions : Obligations.ReadPositions := by
  refine ⟨fun v hi hphi => ?_, fun s t reads line phase ht => ?_,
    fun s t u v w z reads va vb line phase ht hu hva hvb hv hw hz => ?_⟩
  · obtain ⟨near, far, held, i, phi⟩ := v.advanced_spec hi hphi
    refine ⟨near, far, held, i, phi, ?_⟩
    unfold Resampler.advanced
    split
    · rfl
    · split <;> rfl
  · obtain ⟨feeds, pos, ph, heard⟩ := houseSample_tracks line phase reads
    rw [← ht] at feeds pos ph heard
    refine ⟨fun x state => ?_, fun state => ?_, fun x state begins => ?_⟩
    · have begun : inheritRatio s.paced = s.paced := by
        refine inheritRatio_of_begun fun y hy => ?_
        have hy : s.sel.state = .xfade y := hy
        obtain h | h | h | ⟨h, begun⟩ := state
        · simp [h] at hy
        · simp [h] at hy
        · simp [h] at hy
        · exact begun
      have leads : s.paced.sel.state.leader = some x := by
        show s.sel.state.leader = _
        obtain h | h | h | ⟨h, -⟩ := state <;> simp [h, SelState.leader]
      rw [begun] at feeds pos ph heard
      obtain ⟨hears, atPos, atPhase, lead, other⟩ := advancePositions_tracks leads
      have lead := (feeds x).trans lead
      have other := (feeds x.other).trans other
      simp only [State.paced_feed, Feed.paceSample_rs, Feed.paceSample_isRead, Feed.track] at lead other atPos atPhase
      simp only [Prod.mk.injEq] at lead
      obtain ⟨hi, hphi, hr, -⟩ := lead
      rw [pos, ph, atPos, atPhase]
      refine ⟨heard.trans hears, rfl, by rw [hi, hphi], hr, fun read => ?_, fun away => ?_⟩
      · rw [if_pos read] at other
        simp only [Prod.mk.injEq] at other
        obtain ⟨oi, ophi, or, oacc⟩ := other
        exact ⟨by rw [oi, ophi], or, oacc⟩
      · rw [if_neg (by simp [away])] at other
        simp only [Prod.mk.injEq] at other
        obtain ⟨oi, ophi, -⟩ := other
        rw [oi, ophi]
    · have silent : s.paced.sel.state = .silent := state
      rw [inheritRatio_of_begun (by simp [silent])] at feeds pos ph heard
      obtain ⟨follows, still⟩ := advancePositions_silent silent
      rw [still] at pos ph heard
      refine ⟨by rw [pos, ph]; rfl, ?_, fun x read => ?_⟩
      · rw [heard]
        simp only [Selector.hears, silent, SelState.leader]
        rfl
      · have at_x := feeds x
        rw [follows, State.paced_feed] at at_x
        obtain ⟨fi, fphi⟩ := Feed.follow_position (f := (s.feed x).paceSample false) (by simpa using read)
          s.paced.sel.pos s.paced.sel.phase
        simp only [Feed.track, Prod.mk.injEq, fi, fphi] at at_x
        obtain ⟨hi, hphi, -⟩ := at_x
        rw [hi, hphi]
        rfl
    · have leads : (inheritRatio s.paced).sel.state.leader = some x.other := by
        rw [inheritRatio_sel]
        show s.sel.state.leader = _
        rw [state]
        rfl
      obtain ⟨-, atPos, atPhase, lead, -⟩ := advancePositions_tracks leads
      have lead := (feeds x.other).trans lead
      simp only [Feed.track, Prod.mk.injEq] at lead
      obtain ⟨hi, hphi, hr, hacc⟩ := lead
      have incoming := inheritRatio_incoming (s := s.paced) state begins
      simp only [State.paced_feed, Feed.paceSample_rs, Feed.paceSample_setup] at incoming
      rw [hr, hacc, incoming]
      refine ⟨fun mode => ?_, fun mode => ?_, by rw [pos, ph, atPos, atPhase, hi, hphi]⟩
      · rw [if_pos mode]
        exact ⟨rfl, rfl⟩
      · rw [if_neg mode]
        exact ⟨rfl, rfl⟩
  · have paced : t = s.paced := ht
    subst paced
    rw [houseSample_running line phase, programStep, ← hu, ← hva, ← hvb, List.flatMap_append, markFails, ← hv,
      State.onSel, Selector.counted_hears]
    have counted : w = { v with sel := { v.sel with
        n := if v.sel.state.inTransition = true ∧ v.sel.abandoned = false then v.sel.n + 1 else v.sel.n
        j := if v.sel.state.inTransition = true ∧ v.sel.abandoned = true then v.sel.j + 1 else v.sel.j
        lastHeard := v.sel.hears.lastHeard } } := hw
    rw [← counted, ← hz]
    rfl

/-! ## O17 -/

theorem Setup.coveredBy_iff (u : Setup) (v : LaneSet) :
    u.coveredBy v = true ↔ v.l0 = true ∧ (u.lanes = 2 → v.l1 = true) := by
  have lanes : u.coveredBy v = (v.l0 && (!(u.lanes == 2) || v.l1)) := by
    obtain ⟨l0, l1⟩ := v
    unfold Setup.coveredBy Setup.lacking Setup.uses
    cases l0 <;> cases l1 <;> cases u.lanes == 2 <;> rfl
  rw [lanes]
  simp [imp_iff_not_or]

/-- The byte that names the used lanes which a set lacks (spec/12). -/
theorem Setup.lacking_byte (u : Setup) (v : LaneSet) : (u.lacking v).byte =
    BitVec.ofNat 8 ((if v.l0 then 0 else 1) + if u.lanes = 2 ∧ v.l1 = false then 2 else 0) := by
  obtain ⟨l0, l1⟩ := v
  have used : u.uses .l1 = decide (u.lanes = 2) := rfl
  rw [Setup.lacking, used]
  by_cases two : u.lanes = 2
  · rw [decide_eq_true two]
    simp only [two, true_and]
    cases l0 <;> cases l1 <;> rfl
  · rw [decide_eq_false two]
    simp only [two, false_and, if_false]
    cases l0 <;> cases l1 <;> rfl

theorem Feed.paceActive_iff (f : Feed) (starting : Bool) : f.paceActive starting = true ↔
    starting = false ∧ f.setup.mode ≠ .streaming ∧ f.inPlay = true ∧ f.intakeEnded = false := by
  simp only [Feed.paceActive, Bool.and_eq_true, bne_iff_ne, Bool.not_eq_true']
  tauto

/-- A pace state that is not active is at rest (R25). -/
theorem Feed.paceSample_rest {f : Feed} {starting : Bool} (h : f.paceActive starting = false) :
    (f.paceSample starting).pace = paceIdle := by simp [Feed.paceSample, h]

section PaceSample

variable {f : Feed} {starting : Bool} (active : f.paceActive starting = true)
include active

/-- SINGLE, with a request outstanding or without (R26, R27). -/
theorem Feed.paceSample_single (mode : f.setup.mode = .single) : (f.paceSample starting).pace =
    if f.pace.isOpen then
      { f.pace with line := false, window := if f.setup.coveredBy f.pace.begun then f.pace.window else f.pace.window + 1 }
    else if f.fill + 32 ≤ f.setup.target then { paceIdle with line := true, isOpen := true }
    else { f.pace with line := false } := by
  simp only [Feed.paceSample, active, mode, Bool.not_true, Bool.false_eq_true, if_false]
  split
  · rfl
  · split <;> rfl

/-- BURST, with the fill at the target or below it (R28). -/
theorem Feed.paceSample_burst (mode : f.setup.mode = .burst) : (f.paceSample starting).pace =
    if f.setup.target ≤ f.fill then paceIdle
    else if f.pace.reassert then { paceIdle with line := true, isOpen := true, try2 := true }
    else if f.pace.line = false then { paceIdle with line := true, isOpen := true }
    else if f.pace.isOpen = true ∧ f.setup.coveredBy f.pace.begun = false then
      { f.pace with window := f.pace.window + 1 }
    else f.pace := by
  simp only [Feed.paceSample, active, mode, Bool.not_true, Bool.false_eq_true, if_false, Bool.not_eq_true',
    Bool.and_eq_true]
  split
  · rfl
  · split
    · rfl
    · split
      · rfl
      · split <;> rfl

end PaceSample

/-- The windows that can expire (R27, R28). -/
theorem Feed.windowOver_iff (f : Feed) (m : FeedMode) : f.windowOver m = true ↔
    f.setup.mode = m ∧ f.pace.isOpen = true ∧ 128 ≤ f.pace.window ∧
      (f.pace.begun.l0 = false ∨ f.setup.lanes = 2 ∧ f.pace.begun.l1 = false) := by
  have uncovered : f.setup.coveredBy f.pace.begun = false ↔
      f.pace.begun.l0 = false ∨ f.setup.lanes = 2 ∧ f.pace.begun.l1 = false := by
    rw [← Bool.not_eq_true, Setup.coveredBy_iff]
    cases f.pace.begun.l0 <;> cases f.pace.begun.l1 <;> simp
  simp only [Feed.windowOver, Bool.and_eq_true, beq_iff_eq, decide_eq_true_eq, Bool.not_eq_true', uncovered, and_assoc]

theorem paceExpiry_of_not {x : Side} {s : State} (h : ¬ (s.feed x).windowOver .single = true) : paceExpiry x s = s := by
  simp [paceExpiry, h]

theorem burstExpiry_of_not {x : Side} {s : State} (h : ¬ (s.feed x).windowOver .burst = true) : burstExpiry x s = s := by
  simp [burstExpiry, h]

theorem Feed.paceDetail_eq (f : Feed) (x : Side) : f.paceDetail x = [BitVec.ofNat 8 x.code,
    BitVec.ofNat 8 ((if f.pace.begun.l0 then 0 else 1) + if f.setup.lanes = 2 ∧ f.pace.begun.l1 = false then 2 else 0),
    0, 0] := by
  rw [Feed.paceDetail, Setup.lacking_byte, be_one]
  rfl

/-- Settles O17: the pace state at a house sample, and the expiry of its windows. -/
theorem paceLine : Obligations.PaceLine := by
  refine ⟨fun f g starting fill target fresh begun hg hfill htarget hfresh hbegun => ?_,
    fun s t reads x line phase ht => ?_, fun s x f hf line => ⟨fun h => ?_, fun h => ?_, fun isOpen window lacks =>
      ⟨fun mode first => ?_, fun mode second => ?_, fun mode first => ?_, fun mode second => ?_⟩⟩⟩
  · have covered : f.setup.coveredBy f.pace.begun = true ↔ begun := (Setup.coveredBy_iff ..).trans hbegun.symm
    have filled : f.fill = fill := hfill.symm
    have targeted : f.setup.target = target := htarget.symm
    subst hg
    refine ⟨Feed.paceSample_eq .., fun rests => ?_, fun runs mode plays fed => ?_, fun runs mode plays fed => ?_⟩
    · have rest : f.paceActive starting = false := by
        rw [← Bool.not_eq_true, Feed.paceActive_iff]
        rintro ⟨runs, mode, plays, fed⟩
        simp [runs, mode, plays, fed] at rests
      rw [Feed.paceSample_rest rest]
      exact ⟨rfl, rfl, rfl⟩
    · have active := (f.paceActive_iff starting).mpr ⟨runs, by simp [mode], plays, fed⟩
      rw [Feed.paceSample_single active mode, filled, targeted]
      refine ⟨fun isOpen all => ?_, fun isOpen some => ?_, fun closed low => ?_, fun closed high => ?_⟩
      · rw [if_pos isOpen, if_pos (covered.mpr all)]
      · rw [if_pos isOpen, if_neg (mt covered.mp some)]
      · rw [if_neg (by simp [closed]), if_pos low, hfresh]
        rfl
      · rw [if_neg (by simp [closed]), if_neg (by omega)]
    · have active := (f.paceActive_iff starting).mpr ⟨runs, by simp [mode], plays, fed⟩
      rw [Feed.paceSample_burst active mode, filled, targeted]
      refine ⟨fun full => ?_, fun low => ?_⟩
      · rw [if_pos full]
        exact ⟨rfl, rfl, rfl⟩
      · rw [if_neg (by omega)]
        refine ⟨fun again => ?_, fun first off => ?_, fun first on isOpen some => ?_, fun first on all => ?_⟩
        · rw [if_pos again, hfresh]
          rfl
        · rw [if_neg (by simp [first]), if_pos off, hfresh]
          rfl
        · rw [if_neg (by simp [first]), if_neg (by simp [on]),
            if_pos ⟨isOpen, Bool.eq_false_iff.mpr (mt covered.mp some)⟩]
        · rw [if_neg (by simp [first]), if_neg (by simp [on]), if_neg]
          rintro ⟨isOpen, uncovered⟩
          obtain closed | all := all
          · simp [closed] at isOpen
          · simp [covered.mpr all] at uncovered
  · rw [ht]
    obtain ⟨st, pace⟩ | ⟨read, done, idle⟩ := houseSample_paces line phase reads x
    · exact ⟨fun _ => pace, fun moved => absurd st moved⟩
    · rw [done, idle]
      refine ⟨fun same => ?_, fun _ => ⟨rfl, rfl, rfl⟩⟩
      simp [Feed.isRead, ← same] at read
  all_goals subst hf
  · exact congrArg _ (paceExpiry_of_not fun c => by
      obtain ⟨mode, isOpen, window, -⟩ := (Feed.windowOver_iff ..).mp c
      obtain h | h | h := h
      · exact h mode
      · simp [h] at isOpen
      · omega)
  · exact congrArg _ (burstExpiry_of_not fun c => by
      obtain ⟨mode, isOpen, window, -⟩ := (Feed.windowOver_iff ..).mp c
      obtain h | h | h := h
      · exact h mode
      · simp [h] at isOpen
      · omega)
  all_goals have ends := (Feed.windowOver_iff (s.feed x) _).mpr ⟨mode, isOpen, window, lacks⟩
  · show Host.Outcome.next (paceExpiry x s) = _
    rw [paceExpiry, if_pos (by simp [line, ends]), if_neg (by simp [first])]
    rfl
  · show Host.Outcome.next (paceExpiry x s) = _
    rw [paceExpiry, if_pos (by simp [line, ends]), if_pos second, Feed.paceDetail_eq]
    rfl
  · show Host.Outcome.next (burstExpiry x s) = _
    rw [burstExpiry, if_pos (by simp [line, ends]), if_neg (by simp [first])]
    rfl
  · show Host.Outcome.next (burstExpiry x s) = _
    rw [burstExpiry, if_pos (by simp [line, ends]), if_pos second, Feed.paceDetail_eq]
    rfl

/-! ## O18 -/

/-- When a period's close is due (R29). -/
theorem Feed.closeDue_iff (f : Feed) : f.closeDue = true ↔
    f.watch.armed = true ∧ f.inPlay = true ∧ f.intakeEnded = false ∧ 2 ^ f.setup.wExp ≤ f.watch.blocks := by
  simp only [Feed.closeDue, Feed.watchJudges, Bool.and_eq_true, Bool.not_eq_true', decide_eq_true_eq, and_assoc]
  rfl

/-- A period in which nothing was needed is void (R29). -/
theorem Feed.verdict_void {f : Feed} (pace : f.watch.paceBad = false) (st : f.st ≠ .seeking) (still : f.rs.i = f.watch.iOpen) :
    f.verdict = .void := by simp [Feed.verdict, pace, st, still]

theorem Feed.verdict_bad_iff (f : Feed) : f.verdict = .bad ↔
    f.watch.paceBad = true ∨ ((f.st = .seeking ∨ f.rs.i ≠ f.watch.iOpen) ∧
      (f.watch.marks.l0 = false ∨ f.setup.lanes = 2 ∧ f.watch.marks.l1 = false)) := by
  have uncovered : f.setup.coveredBy f.watch.marks = false ↔
      f.watch.marks.l0 = false ∨ f.setup.lanes = 2 ∧ f.watch.marks.l1 = false := by
    rw [← Bool.not_eq_true, Setup.coveredBy_iff]
    cases f.watch.marks.l0 <;> cases f.watch.marks.l1 <;> simp
  have needed : (f.st = .seeking ∨ f.rs.i ≠ f.watch.iOpen) ↔ ¬ (f.st ≠ .seeking ∧ f.rs.i = f.watch.iOpen) := by tauto
  rw [← uncovered, needed, Feed.verdict]
  split
  next pace => simp [pace]
  next pace =>
    split
    next void => simp [pace, void]
    next need =>
      split
      next all => simp [pace, all]
      next some => simp only [pace, need, some, not_false_eq_true]; simp

theorem Feed.verdict_good {f : Feed} (fine : f.verdict ≠ .bad) (needed : f.st = .seeking ∨ f.rs.i ≠ f.watch.iOpen) :
    f.verdict = .good := by
  unfold Feed.verdict at fine ⊢
  split
  next pace => simp [pace] at fine
  next pace =>
    split
    next void => exact absurd void (by tauto)
    next need =>
      split
      · rfl
      next some => simp [pace, need, some] at fine

theorem Feed.lostDetail_eq (f : Feed) (x : Side) (cause : Nat) : f.lostDetail x cause = [BitVec.ofNat 8 x.code,
    BitVec.ofNat 8 cause,
    BitVec.ofNat 8 ((if f.watch.marks.l0 then 0 else 1) + if f.setup.lanes = 2 ∧ f.watch.marks.l1 = false then 2 else 0),
    0] := by
  rw [Feed.lostDetail, Setup.lacking_byte, be_one, be_one]
  rfl

/-- The watch at a period's end, judged void, bad or good (R29). -/
theorem Watch.closed_void {w : Watch} (pace : w.paceBad = false) (i : Nat) :
    w.closed .void i = { w with blocks := 0, marks := noLanes, iOpen := i } := by
  rw [Watch.closed, ← pace]

theorem Watch.closed_bad (w : Watch) (i : Nat) : w.closed .bad i = { w with
    blocks := 0, marks := noLanes, paceBad := false, iOpen := i, bad := min (w.bad + 1) 2, good := 0
    absent := w.absent || min (w.bad + 1) 2 == 2 } := rfl

theorem Watch.closed_good (w : Watch) (i : Nat) : w.closed .good i = { w with
    blocks := 0, marks := noLanes, paceBad := false, iOpen := i, bad := 0, good := min (w.good + 1) 2
    absent := w.absent && min (w.good + 1) 2 != 2 } := rfl

/-- A close that confirms nothing, a loss and a return (R29 to R31). -/
theorem closePeriod_kept {s : State} {x : Side} {w : Watch}
    (closed : (s.feed x).watch.closed (s.feed x).verdict (s.feed x).rs.i = w) (same : w.absent = (s.feed x).watch.absent) :
    closePeriod x s = s.setFeed x { s.feed x with watch := w } := by
  simp [closePeriod, closed, same]

theorem closePeriod_lost {s : State} {x : Side} {w : Watch}
    (closed : (s.feed x).watch.closed (s.feed x).verdict (s.feed x).rs.i = w) (present : (s.feed x).watch.absent = false)
    (absent : w.absent = true) : closePeriod x s =
      lossTaken x (raise .lanelost ((s.feed x).lostDetail x 0) (s.setFeed x { s.feed x with watch := w })) := by
  simp [closePeriod, closed, present, absent]

theorem closePeriod_returned {s : State} {x : Side} {w : Watch}
    (closed : (s.feed x).watch.closed (s.feed x).verdict (s.feed x).rs.i = w) (absent : (s.feed x).watch.absent = true)
    (present : w.absent = false) : closePeriod x s =
      raise .lanelost ((s.feed x).lostDetail x 1) (s.setFeed x { s.feed x with watch := w }) := by
  simp [closePeriod, closed, present, absent]

theorem exec_watchPeriodClose {s : State} {x : Side} (line : s.resetLine = false) (quiet : s.sel.over = false) :
    exec (.watchPeriodClose x) s = .next (if (s.feed x).closeDue then closePeriod x s else s) := by
  show Host.Outcome.next (watchClose x s) = _
  rw [watchClose, caughtUp_of_quiet quiet, line]
  rfl

/-- Settles O18: by the judgement of the period, then by what it confirms. -/
theorem watchClose_holds : Obligations.WatchClose := by
  rintro s x f bad rfl line quiet
  rw [exec_watchPeriodClose line quiet]
  refine ⟨fun idle => ?_, fun armed plays fed late => ?_⟩
  · rw [if_neg]
    rw [Feed.closeDue_iff]
    rintro ⟨armed, plays, fed, late⟩
    obtain h | h | h | h := idle
    · simp [h] at armed
    · simp [h] at plays
    · simp [h] at fed
    · omega
  · rw [if_pos ((Feed.closeDue_iff _).mpr ⟨armed, plays, fed, late⟩)]
    refine ⟨fun pace st still => ?_, fun hbad => ⟨fun isBad first => ?_, fun isBad second present => ?_,
      fun fine needed first => ?_, fun fine needed second absent => ?_⟩⟩
    · have closed := Watch.closed_void pace (s.feed x).rs.i
      rw [← Feed.verdict_void pace st still] at closed
      exact congrArg _ (closePeriod_kept closed rfl)
    · have closed := Watch.closed_bad (s.feed x).watch (s.feed x).rs.i
      rw [← (Feed.verdict_bad_iff _).mpr (hbad ▸ isBad)] at closed
      have same : ((s.feed x).watch.absent || min ((s.feed x).watch.bad + 1) 2 == 2) = (s.feed x).watch.absent := by
        obtain h | h := first <;> simp [h]
      rw [same] at closed
      exact congrArg _ (closePeriod_kept closed rfl)
    · have closed := Watch.closed_bad (s.feed x).watch (s.feed x).rs.i
      rw [← (Feed.verdict_bad_iff _).mpr (hbad ▸ isBad), second] at closed
      have lost : ((s.feed x).watch.absent || min (1 + 1) 2 == 2) = true := by simp
      rw [lost] at closed
      rw [closePeriod_lost closed present rfl, Feed.lostDetail_eq]
      rfl
    · have closed := Watch.closed_good (s.feed x).watch (s.feed x).rs.i
      rw [← Feed.verdict_good (fun c => fine (hbad ▸ (Feed.verdict_bad_iff _).mp c)) needed] at closed
      have same : ((s.feed x).watch.absent && min ((s.feed x).watch.good + 1) 2 != 2) = (s.feed x).watch.absent := by
        obtain h | h := first <;> simp [h]
      rw [same] at closed
      exact congrArg _ (closePeriod_kept closed rfl)
    · have closed := Watch.closed_good (s.feed x).watch (s.feed x).rs.i
      have verdict := Feed.verdict_good (fun c => fine (hbad ▸ (Feed.verdict_bad_iff _).mp c)) needed
      rw [← verdict, second] at closed
      have back : ((s.feed x).watch.absent && min (1 + 1) 2 != 2) = false := by simp
      rw [back] at closed
      have all : ¬ ((s.feed x).watch.marks.l0 = false ∨ (s.feed x).setup.lanes = 2 ∧ (s.feed x).watch.marks.l1 = false) :=
        fun lacks => fine (hbad ▸ .inr ⟨needed, lacks⟩)
      rw [not_or, Bool.not_eq_false] at all
      rw [closePeriod_returned closed absent rfl, Feed.lostDetail_eq, if_pos all.1, if_neg all.2]
      rfl

end Sys2Proof.Machine
end

section
/-!
O34, O35, O38, O39: the scene store.
-/

namespace Sys2Proof.Machine

open Sys2Proof
/-! ## O39 -/

theorem ActiveRoute.advanced_step {e : ActiveRoute} (h : 1 < e.remaining) :
    e.advanced = { e with remaining := e.remaining - 1, gain := e.gain + e.step } := by
  rw [ActiveRoute.advanced, if_neg (by omega), if_neg (by omega)]

theorem ActiveRoute.advanced_last {e : ActiveRoute} (h : e.remaining = 1) :
    e.advanced = { e with remaining := 0, gain := e.target } := by
  rw [ActiveRoute.advanced, if_neg (by omega), if_pos h]

/-- Before its last house sample a ramp has gone by equal steps (R125). -/
theorem ActiveRoute.advanced_iterate (e : ActiveRoute) (j : Nat) (h : j < e.remaining) :
    ActiveRoute.advanced^[j] e = { e with gain := e.gain + j * e.step, remaining := e.remaining - j } := by
  induction j with
  | zero => simp
  | succ j ih =>
    rw [Function.iterate_succ_apply', ih (by omega), ActiveRoute.advanced_step (by show 1 < e.remaining - j; omega)]
    simp only [Nat.cast_add, Nat.cast_one, add_mul, one_mul, add_assoc, Nat.sub_sub]

/-- From its last house sample on, a route stands at its target (R125). -/
theorem ActiveRoute.advanced_landed (e : ActiveRoute) (j : Nat) (some : 0 < e.remaining) (h : e.remaining ≤ j) :
    ActiveRoute.advanced^[j] e = { e with gain := e.target, remaining := 0 } := by
  induction j, h using Nat.le_induction with
  | base =>
    obtain ⟨n, hn⟩ : ∃ n, e.remaining = n + 1 := ⟨e.remaining - 1, by omega⟩
    rw [hn, Function.iterate_succ_apply', e.advanced_iterate n (by omega),
      ActiveRoute.advanced_last (by show e.remaining - n = 1; omega)]
  | succ j _ ih =>
    rw [Function.iterate_succ_apply', ih]
    rfl

/-- Up to n equal steps of a difference's n-th part stay between 0 and the difference (R121, R125). -/
theorem steps_between (d : Int) {n j : Nat} (h : j ≤ n) :
    min 0 d ≤ j * d.tdiv n ∧ j * d.tdiv n ≤ max 0 d := by
  have pos {d : Int} (hd : 0 ≤ d) : 0 ≤ j * d.tdiv n ∧ j * d.tdiv n ≤ d := by
    have q : 0 ≤ d.tdiv n := Int.tdiv_nonneg hd (Int.natCast_nonneg n)
    refine ⟨mul_nonneg (Int.natCast_nonneg j) q, ?_⟩
    calc (j : Int) * d.tdiv n ≤ n * d.tdiv n := mul_le_mul_of_nonneg_right (by exact_mod_cast h) q
      _ ≤ d := by
        rw [Int.tdiv_eq_ediv_of_nonneg hd]
        obtain rfl | some := Nat.eq_zero_or_pos n
        · simpa using hd
        · exact Int.mul_ediv_self_le (by omega)
  obtain hd | hd := le_total 0 d
  · obtain ⟨lo, hi⟩ := pos hd
    exact ⟨(min_le_left _ _).trans lo, hi.trans (le_max_right _ _)⟩
  · obtain ⟨lo, hi⟩ := pos (d := -d) (by omega)
    rw [Int.neg_tdiv, mul_neg] at lo hi
    exact ⟨(min_le_right _ _).trans (by omega), le_trans (by omega) (le_max_left _ _)⟩

/-- Settles O39: the ramp's steps, and RAMP_END as its last. -/
theorem ramp : Obligations.Ramp := by
  refine ⟨?_, fun s input output line => ?_⟩
  · rintro e g rfl step whole
    have some : 0 < e.remaining := by rw [whole]; positivity
    refine ⟨fun j early => ?_, fun j late => e.advanced_landed j some (by omega), fun j => ?_⟩
    · rw [e.advanced_iterate j (by omega), whole]
      exact ⟨rfl, rfl⟩
    · by_cases early : j < 2 ^ e.k
      · rw [e.advanced_iterate j (by omega), step]
        obtain ⟨lo, hi⟩ := steps_between (e.target - e.gain) early.le
        push_cast at lo hi
        constructor
        · show _ ≤ e.gain + _
          omega
        · show e.gain + _ ≤ _
          omega
      · rw [e.advanced_landed j some (by omega)]
        exact ⟨min_le_right _ _, le_max_right _ _⟩
  · show Host.Outcome.next (endRamp input output s) = _
    rw [endRamp, if_neg (by simp [line])]
    have ends (e : ActiveRoute) : (if e.key = keyOf input output ∧ e.remaining = 1 then e.advanced else e) =
        if e.key = output * 256 + input ∧ e.remaining = 1 then { e with gain := e.target, remaining := 0 } else e := by
      split
      next h => rw [if_pos (by exact h), ActiveRoute.advanced_last h.2]
      next h => rw [if_neg (by exact h)]
    simp only [ends]

/-! ## O34 -/

/-- SCNOPEN's refusals (R112, log 63). -/
theorem scnopen_range {mode : Byte} (bad : 1 < mode.toNat) (r : Role) (s : State) :
    scnopen [mode] r s = complete r .range [] s := by
  have none : boolOf (u8 [mode] 0) = none := boolOf_of_gt bad
  simp only [scnopen, none]

theorem scnopen_busy {mode : Byte} {s : State} (known : mode.toNat ≤ 1) (taken : s.scene.state ≠ .free) (r : Role) :
    scnopen [mode] r s = complete r .busy [] s := by
  have known : boolOf (u8 [mode] 0) = some (mode.toNat == 1) := boolOf_of_le_one known
  simp only [scnopen, known, taken, ne_eq, not_false_eq_true, if_true]

/-- SCNOPEN of a free store, empty or waiting for its copy (R112, R113). -/
theorem scnopen_free {mode : Byte} {copying : Bool} {s : State} (known : boolOf mode.toNat = some copying)
    (free : s.scene.state = .free) (r : Role) : scnopen [mode] r s =
      if copying then { s with scene := { s.scene with state := .building, pendingBank := [], copy := s.await } }
      else complete r .ok (be 2 0)
        { s with scene := { s.scene with state := .building, pendingBank := [], copy := .none } } := by
  have known : boolOf (u8 [mode] 0) = some copying := known
  simp only [scnopen, known]
  rw [if_neg (by simp [free])]

/-- The copy (R113). -/
theorem serveCopy_due {s : State} (line : s.resetLine = false) (due : s.scene.copy = .due)
    (state : s.scene.state = .building) : serveCopy s =
      complete .render .ok (be 2 s.scene.copied.length) { s with scene := s.scene.copyMade } := by
  simp [serveCopy, line, due, state]

theorem serveCopy_not {s : State} (h : s.scene.copy ≠ .due) : serveCopy s = s := by
  rw [serveCopy, if_neg (by simp [h])]

/-- SCNTAKE (R119). -/
theorem scntake_sealed {s : State} {kr : Nat} (state : s.scene.state = .sealed kr) (r : Role) :
    scntake r s = { s with scene := { s.scene with take := s.await } } := by
  simp only [scntake, state]

theorem scntake_other {s : State} (h : ∀ kr, s.scene.state ≠ .sealed kr) (r : Role) :
    scntake r s = complete r .nothing [] s := by
  unfold scntake
  split
  next kr state => exact absurd state (h kr)
  · rfl

theorem serveTake_not {s : State} (h : s.scene.take ≠ .due) : serveTake s = s := by
  rw [serveTake, if_neg (by simp [h])]

/-- A take of no sealed bank (R119). -/
theorem serveTake_nothing {s : State} (line : s.resetLine = false) (due : s.scene.take = .due)
    (h : ∀ kr, s.scene.state ≠ .sealed kr) :
    serveTake s = complete .render .nothing [] { s with scene := { s.scene with take := .none } } := by
  have none : takeBank { s with scene := { s.scene with take := .none } } =
      (.nothing, { entered := 0, releasing := 0, cut := 0 }, { s with scene := { s.scene with take := .none } }) := by
    unfold takeBank
    split
    next kr state => exact absurd state (h kr)
    · rfl
  rw [serveTake, if_pos (by simp [line, due]), none]

/-- Settles O34: SCNOPEN and its copy, SCNTAKE, and a take of nothing. -/
theorem sceneWaits : Obligations.SceneWaits := by
  refine ⟨⟨fun s addr mode hs => ?_, fun s code line due state slot => ?_, fun s h => congrArg _ (serveCopy_not h)⟩,
    fun s addr hs => ?_, fun s => ⟨fun code line due state slot => ?_, fun h => congrArg _ (serveTake_not h)⟩⟩
  · have reach : exec (.scnopen addr [mode]) s = .next (scnopen [mode] .render ((caughtUp s).executes .render 0x20)) :=
      exec_scene_served (i := .scnopen addr [mode]) rfl hs (by decide) (by simp) rfl
    have scene : ((caughtUp s).executes .render 0x20).scene = s.scene := caughtUp_scene s
    refine ⟨fun bad => ?_, fun known taken => ?_, fun h free => ?_, fun h free => ?_⟩
    · rw [reach, scnopen_range bad, complete_executes]
    · rw [reach, scnopen_busy known (by rw [scene]; exact taken), complete_executes]
    · subst h
      rw [reach, scnopen_free (copying := false) rfl (by rw [scene]; exact free), scene]
      exact congrArg _ (complete_executes { caughtUp s with scene := _ } ..)
    · subst h
      rw [reach, scnopen_free (copying := true) rfl (by rw [scene]; exact free), scene, ← caughtUp_blockDue s, ← caughtUp_bus s]
      rfl
  · show Host.Outcome.next (serveCopy s) = _
    have count : s.scene.copied.length = (s.scene.active.filter fun e : ActiveRoute => !e.releasing).length :=
      List.length_map ..
    rw [serveCopy_due line due state, count, complete_of_executing (by exact slot)]
    rfl
  · refine ⟨fun kr state => ?_, fun state => ?_⟩
    · rw [exec_scene_served (i := .scntake addr []) rfl hs (by decide) (by simp) rfl]
      show Host.Outcome.next (scntake .render ((caughtUp s).executes .render 0x25)) = _
      have scene : ((caughtUp s).executes .render 0x25).scene = s.scene := caughtUp_scene s
      rw [scntake_sealed (by rw [scene]; exact state), scene, ← caughtUp_blockDue s, ← caughtUp_bus s]
      rfl
    · rw [exec_scene_served (i := .scntake addr []) rfl hs (by decide) (by simp) rfl]
      show Host.Outcome.next (scntake .render ((caughtUp s).executes .render 0x25)) = _
      have scene : ((caughtUp s).executes .render 0x25).scene = s.scene := caughtUp_scene s
      rw [scntake_other (by rw [scene]; exact state), complete_executes]
  · show Host.Outcome.next (serveTake s) = _
    rw [serveTake_nothing line due state, complete_of_executing (by exact slot)]

/-! ## O38 -/

/-- Keys within range agree exactly where inputs and outputs do (R109). -/
theorem RouteEntry.key_eq_iff {p : RouteEntry} {e : ActiveRoute} (hp : p.input ≤ 95) (he : e.input ≤ 95) :
    p.key = e.key ↔ p.input = e.input ∧ p.output = e.output := by
  unfold RouteEntry.key ActiveRoute.key keyOf
  omega

theorem ActiveRoute.eq_of_key {l : List ActiveRoute} (order : l.Pairwise fun d e => d.key < e.key) {d e : ActiveRoute}
    (hd : d ∈ l) (he : e ∈ l) (same : d.key = e.key) : d = e :=
  List.inj_on_of_nodup_map (routeKeys_nodup order) hd he same

/-- The old routes of a take: those whose keys the pending bank does not hold (R122). -/
def Scene.oldRoutes (v : Scene) : List ActiveRoute := v.active.filter fun e => !holdsKey v.pendingBank e.key

theorem Scene.releasedRoutes_eq (v : Scene) (kr : Nat) : v.releasedRoutes kr = v.oldRoutes.map fun e => e.released kr := rfl

section Cut

variable {v : Scene} (order : v.active.Pairwise fun d e => d.key < e.key) (house : Rate) (kr : Nat)
include order

/-- The bank that a take leaves holds an old route's key exactly where the release was kept (R123, R124). -/
theorem Scene.taken_holds_iff {e : ActiveRoute} (he : e ∈ v.oldRoutes) :
    ((v.taken house kr).active.any fun d => d.key == e.key) = true ↔
      e.released kr ∈ keptReleases (v.releasedRoutes kr) (routeCapacity house - v.pendingBank.length) := by
  have perm := Scene.taken_active_perm order house kr
  simp only [List.any_eq_true, beq_iff_eq, perm.mem_iff, List.mem_append]
  constructor
  · rintro ⟨d, kept | entered, same⟩
    · obtain ⟨a, ha, rfl⟩ := List.mem_map.mp (mem_of_mem_keptReleases kept)
      rwa [← ActiveRoute.eq_of_key order (List.mem_of_mem_filter ha) (List.mem_of_mem_filter he) same]
    · obtain ⟨p, hp, rfl⟩ := List.mem_map.mp entered
      have held : holdsKey v.pendingBank e.key = true := holdsKey_iff.mpr ⟨p, hp, same⟩
      simp [Scene.oldRoutes, held] at he
  · exact fun kept => ⟨_, .inl kept, rfl⟩

/-- A release is kept or among the quietest, which are cut (R123). -/
theorem Scene.kept_or_cut {e : ActiveRoute} (he : e ∈ v.oldRoutes) (room : Nat) :
    e.released kr ∈ keptReleases (v.releasedRoutes kr) room ∨
      e.released kr ∈ (quietestFirst (v.releasedRoutes kr)).take ((v.releasedRoutes kr).length - room) := by
  have mem : e.released kr ∈ quietestFirst (v.releasedRoutes kr) :=
    (quietestFirst_perm _).mem_iff.mpr (List.mem_map_of_mem he)
  rw [← List.take_append_drop ((v.releasedRoutes kr).length - room) (quietestFirst _), List.mem_append] at mem
  exact mem.symm.imp_left (keptReleases_perm (Scene.releasedRoutes_pairwise order kr) room).mem_iff.mpr

/-- What is cut is quieter than what is kept (R123). -/
theorem Scene.cut_quieter {c e : ActiveRoute} {room : Nat} (hc : c ∈ v.oldRoutes)
    (cut : c.released kr ∉ keptReleases (v.releasedRoutes kr) room)
    (kept : e.released kr ∈ keptReleases (v.releasedRoutes kr) room) : Quieter c e := by
  have rel := Scene.releasedRoutes_pairwise order kr
  have first := (Scene.kept_or_cut order kr hc room).resolve_left cut
  have last := (keptReleases_perm rel room).mem_iff.mp kept
  have pairs := quietestFirst_pairwise rel
  rw [← List.take_append_drop ((v.releasedRoutes kr).length - room) (quietestFirst _), List.pairwise_append] at pairs
  obtain ⟨-, -, across⟩ := pairs
  have quieter : Quieter (c.released kr) (e.released kr) := across _ first _ last
  exact quieter

/-- As many are cut as exceed the headroom (R123). -/
theorem Scene.cut_length : (v.oldRoutes.filter fun e => !((v.taken house kr).active.any fun d => d.key == e.key)).length =
    v.oldRoutes.length - (routeCapacity house - v.pendingBank.length) := by
  have rel := Scene.releasedRoutes_pairwise order kr
  have kept := keptReleases_length rel (routeCapacity house - v.pendingBank.length)
  have same : (v.oldRoutes.filter fun e => (v.taken house kr).active.any fun d => d.key == e.key).length =
      (keptReleases (v.releasedRoutes kr) (routeCapacity house - v.pendingBank.length)).length := by
    have holds (e : ActiveRoute) (he : e ∈ v.oldRoutes) := Scene.taken_holds_iff order house kr he
    simp only [keptReleases, List.mem_filter, Scene.releasedRoutes_eq] at holds ⊢
    rw [List.filter_map, List.length_map]
    refine congrArg _ (List.filter_congr fun e he => Bool.eq_iff_iff.mpr ((holds e he).trans ?_))
    exact and_iff_right (List.mem_map_of_mem he)
  rw [kept, Scene.releasedRoutes_eq, List.length_map] at same
  have all := List.length_eq_length_filter_add (l := v.oldRoutes)
    fun e => (v.taken house kr).active.any fun d => d.key == e.key
  omega

end Cut

/-- With the fields within range, the old routes are those of no pending input and output (R109, R122). -/
theorem Scene.oldRoutes_eq {v : Scene} (pending : ∀ p ∈ v.pendingBank, p.input ≤ 95) (active : ∀ e ∈ v.active, e.input ≤ 95) :
    v.oldRoutes = v.active.filter fun e : ActiveRoute =>
      !(v.pendingBank.any fun p : RouteEntry => p.input == e.input && p.output == e.output) := by
  refine List.filter_congr fun e he => congrArg _ (Bool.eq_iff_iff.mpr ?_)
  simp only [holdsKey, List.any_eq_true, Bool.and_eq_true, beq_iff_eq]
  exact exists_congr fun p => and_congr_right fun hp => RouteEntry.key_eq_iff (pending p hp) (active e he)

theorem Scene.takeCounts_eq (v : Scene) (house : Rate) (kr : Nat) : v.takeCounts house kr =
    { entered := v.pendingBank.length
      releasing := min v.oldRoutes.length (routeCapacity house - v.pendingBank.length)
      cut := v.oldRoutes.length - (routeCapacity house - v.pendingBank.length) } := by
  simp [Scene.takeCounts, Scene.releasedRoutes_eq]

/-- A take of a sealed bank (R119 to R124). -/
theorem serveTake_sealed {s : State} {kr : Nat} (line : s.resetLine = false) (due : s.scene.take = .due)
    (state : s.scene.state = .sealed kr) : serveTake s =
      complete .render .ok
        (cap8 (s.scene.takeCounts s.clock.rateClass kr).entered ++
          cap8 (s.scene.takeCounts s.clock.rateClass kr).releasing ++ cap8 (s.scene.takeCounts s.clock.rateClass kr).cut)
        (raiseIf (decide (0 < (s.scene.takeCounts s.clock.rateClass kr).cut)) .cutrelease
          (be 2 (s.scene.takeCounts s.clock.rateClass kr).cut ++ be 2 (s.scene.takeCounts s.clock.rateClass kr).releasing)
          { s with scene := { s.scene.taken s.clock.rateClass kr with take := .none } }) := by
  have taken : takeBank { s with scene := { s.scene with take := .none } } =
      (.ok, s.scene.takeCounts s.clock.rateClass kr,
        raiseIf (decide (0 < (s.scene.takeCounts s.clock.rateClass kr).cut)) .cutrelease
          (be 2 (s.scene.takeCounts s.clock.rateClass kr).cut ++ be 2 (s.scene.takeCounts s.clock.rateClass kr).releasing)
          { s with scene := { s.scene.taken s.clock.rateClass kr with take := .none } }) := by
    simp only [takeBank, state]
    rfl
  rw [serveTake, if_pos (by simp [line, due]), taken]

/-- Settles O38: the counts, the bank that is left, and what is cut of it. -/
theorem take_holds : Obligations.Take := by
  rintro s code kr old cut room line due state slot ⟨⟨pOrder, -, -, pFields, -⟩, aOrder, -, -, aFields⟩ hold rfl
  rw [← Scene.oldRoutes_eq (fun p hp => (pFields p hp).1) fun e he => (aFields e he).1] at hold
  subst hold
  refine ⟨{ s with
    scene := { s.scene.taken s.clock.rateClass kr with take := .none }
    notices := (if routeCapacity s.clock.rateClass - s.scene.pendingBank.length < s.scene.oldRoutes.length then
      raise .cutrelease (be 2 (s.scene.oldRoutes.length - (routeCapacity s.clock.rateClass - s.scene.pendingBank.length)) ++
        be 2 (routeCapacity s.clock.rateClass - s.scene.pendingBank.length)) s else s).notices }, ?_, rfl, rfl, rfl, ?_, ?_,
    ?_, fun p hp g hg => ?_, fun hcut => ?_, rfl, rfl⟩
  · show Host.Outcome.next (serveTake s) = _
    rw [serveTake_sealed line due state, Scene.takeCounts_eq, raiseIf_eq]
    by_cases more : routeCapacity s.clock.rateClass - s.scene.pendingBank.length < s.scene.oldRoutes.length
    · rw [if_pos (decide_eq_true (Nat.sub_pos_of_lt more)), if_pos more, min_eq_right more.le,
        complete_of_executing (by exact slot)]
      rfl
    · rw [if_neg (by simpa using more), if_neg more, complete_of_executing (by exact slot)]
      rfl
  · exact congrArg TakeCounts.cut (Scene.takeCounts_eq ..)
  · refine (Scene.taken_active_length aOrder ..).trans ?_
    rw [Scene.releasedRoutes_eq, List.length_map]
  · exact Scene.taken_active_pairwise pOrder ..
  · refine (Scene.taken_active_perm aOrder ..).mem_iff.mpr (List.mem_append.mpr (.inr (List.mem_map.mpr ⟨p, hp, ?_⟩)))
    have start : gainAt s.scene.active p.key = g := by
      rw [hg]
      unfold gainAt
      cases s.scene.active.find? fun e => e.key == p.key <;> rfl
    rw [start]
    simp [RouteEntry.entered]
  · have heldBy {e : ActiveRoute} (he : e ∈ s.scene.oldRoutes) (kept : e ∉ cut) : e.released kr ∈
        keptReleases (s.scene.releasedRoutes kr) (routeCapacity s.clock.rateClass - s.scene.pendingBank.length) := by
      rw [← Scene.taken_holds_iff aOrder s.clock.rateClass kr he]
      by_contra none
      exact kept (hcut ▸ List.mem_filter.mpr ⟨he, by simpa using none⟩)
    refine ⟨hcut ▸ Scene.cut_length aOrder .., fun e he kept => ?_, fun c hc e he kept => ?_⟩
    · have held := List.mem_append_left (Scene.enteredRoutes s.scene) (heldBy he kept)
      simp only [ActiveRoute.released, zero_sub, Nat.cast_pow, Nat.cast_ofNat] at held
      exact (Scene.taken_active_perm aOrder ..).mem_iff.mpr held
    · rw [hcut, List.mem_filter] at hc
      obtain ⟨hc, gone⟩ := hc
      refine Scene.cut_quieter aOrder kr hc (fun held => ?_) (heldBy he kept)
      have still := (Scene.taken_holds_iff aOrder s.clock.rateClass kr hc).mpr held
      exact absurd still (by simpa using gone)

/-! ## O35 -/

theorem cap8_of_le {n : Nat} (h : n ≤ 255) : cap8 n = be 1 n := by rw [cap8, Nat.min_eq_left h]

theorem cap16_of_le {n : Nat} (h : n ≤ 65535) : cap16 n = be 2 n := by rw [cap16, Nat.min_eq_left h]

theorem pendingLimit_small (house : Rate) : pendingLimit house ≤ 1536 := by cases house <;> decide

section Routeset

variable {s : State} (state : s.scene.state = .building) (es : List RouteEntry) (r : Role)
include state

/-- A bad entry is named with its field (R114, log 56). -/
theorem routeset_range {k : Nat} {e : RouteEntry} (at_k : es[k]? = some e) (bad : 95 < e.input ∨ 63 < e.output)
    (before : ∀ d ∈ es.take k, d.input ≤ 95 ∧ d.output ≤ 63) :
    routeset es r s = complete r .range (be 1 k ++ [if 95 < e.input then 0 else 1]) s := by
  have first : firstIndex (fun e : RouteEntry => decide (95 < e.input ∨ 63 < e.output)) es = some k :=
    firstIndex_some at_k (by simpa using bad) fun d hd => by
      have := before d hd
      simp only [decide_eq_false_iff_not]
      omega
  have entry : es.getD k ⟨0, 0, 0, 0⟩ = e := by simp [at_k]
  have field : be 1 (if 95 < e.input then 0 else 1) = [if 95 < e.input then 0 else 1] := by split <;> rfl
  rw [routeset, if_neg (not_not.mpr state), first]
  simp only [entry, field]

variable (good : ∀ e ∈ es, e.input ≤ 95 ∧ e.output ≤ 63)
include good

omit state in
theorem routeset_first_none :
    firstIndex (fun e : RouteEntry => decide (95 < e.input ∨ 63 < e.output)) es = none :=
  firstIndex_none fun e he => by
    have := good e he
    simp only [decide_eq_false_iff_not]
    omega

/-- A list whose new keys do not fit (R114). -/
theorem routeset_full (h : pendingLimit s.clock.rateClass <
    s.scene.pendingBank.length + (newKeys es s.scene.pendingBank).length) : routeset es r s =
      complete r .full (cap16 s.scene.pendingBank.length ++ cap16 (newKeys es s.scene.pendingBank).length) s := by
  rw [routeset, if_neg (not_not.mpr state), routeset_first_none es good]
  exact if_pos h

/-- A list that fits (R115). -/
theorem routeset_taken (h : s.scene.pendingBank.length + (newKeys es s.scene.pendingBank).length ≤
    pendingLimit s.clock.rateClass) : routeset es r s =
      complete r (if 0 < (es.filter fun e : RouteEntry => decide (11 < e.k)).length then .clamped else .ok)
        (cap16 (newKeys es s.scene.pendingBank).length ++
          cap8 (es.length - (newKeys es s.scene.pendingBank).length) ++
          cap8 (es.filter fun e : RouteEntry => decide (11 < e.k)).length ++
          cap16 (applyRoutes es s.scene.pendingBank).length)
        { s with scene := { s.scene with pendingBank := applyRoutes es s.scene.pendingBank } } := by
  rw [routeset, if_neg (not_not.mpr state), routeset_first_none es good]
  exact if_neg (by omega)

end Routeset

section Routedrop

variable {s : State} (state : s.scene.state = .building) (ks : List (Nat × Nat)) (r : Role)
include state

theorem routedrop_range {j : Nat} {k : Nat × Nat} (at_j : ks[j]? = some k) (bad : 95 < k.1 ∨ 63 < k.2)
    (before : ∀ d ∈ ks.take j, d.1 ≤ 95 ∧ d.2 ≤ 63) : routedrop ks r s = complete r .range (be 1 j) s := by
  have first : firstIndex (fun k : Nat × Nat => decide (95 < k.1 ∨ 63 < k.2)) ks = some j :=
    firstIndex_some at_j (by simpa using bad) fun d hd => by
      have := before d hd
      simp only [decide_eq_false_iff_not]
      omega
  rw [routedrop, if_neg (not_not.mpr state), first]

/-- The keys named leave the pending bank (R116). -/
theorem routedrop_taken (good : ∀ k ∈ ks, k.1 ≤ 95 ∧ k.2 ≤ 63) {bank : List RouteEntry}
    (left : bank = s.scene.pendingBank.filter fun e => !(ks.map fun k => keyOf k.1 k.2).contains e.key) :
    routedrop ks r s = complete r .ok
      (cap8 (s.scene.pendingBank.length - bank.length) ++
        cap8 (ks.length - (s.scene.pendingBank.length - bank.length)) ++ cap16 bank.length)
      { s with scene := { s.scene with pendingBank := bank } } := by
  have none : firstIndex (fun k : Nat × Nat => decide (95 < k.1 ∨ 63 < k.2)) ks = none :=
    firstIndex_none fun k hk => by
      have := good k hk
      simp only [decide_eq_false_iff_not]
      omega
  rw [routedrop, if_neg (not_not.mpr state), none, left]

end Routedrop

/-- No more entries are dropped than keys are named (R116). -/
theorem dropped_le {bank : List RouteEntry} (order : bank.Pairwise fun x y => x.key < y.key) (keys : List Nat) :
    bank.length - (bank.filter fun e => !keys.contains e.key).length ≤ keys.length := by
  have all := List.length_eq_length_filter_add (l := bank) fun e => keys.contains e.key
  have nodup : ((bank.filter fun e => keys.contains e.key).map RouteEntry.key).Nodup := keys_nodup (order.filter _)
  have some := (nodup.subperm (l₂ := keys) fun k hk => by
    obtain ⟨e, he, rfl⟩ := List.mem_map.mp hk
    simpa using (List.mem_filter.mp he).2).length_le
  rw [List.length_map] at some
  omega

/-- An entry's key is one of a list of keys exactly where its input and output are (R109). -/
theorem keyNamed_eq (ks : List (Nat × Nat)) {e : RouteEntry} (good : ∀ k ∈ ks, k.1 ≤ 95) (he : e.input ≤ 95) :
    (ks.any fun k => e.input == k.1 && e.output == k.2) = (ks.map fun k => keyOf k.1 k.2).contains e.key := by
  rw [Bool.eq_iff_iff]
  simp only [List.any_eq_true, Bool.and_eq_true, beq_iff_eq, List.contains_eq_mem, List.mem_map, decide_eq_true_eq]
  refine exists_congr fun k => and_congr_right fun hk => ?_
  have := good k hk
  unfold RouteEntry.key keyOf
  omega

/-- Settles O35: the refusals in order, then what each leaves in the pending bank. -/
theorem routeEdits : Obligations.RouteEdits := by
  refine ⟨fun s addr es hs fits short pend => ?_, fun s addr ks hs fits short pend => ?_⟩
  · have reach : exec (.routeset addr (es.flatMap RouteEntry.bytes)) s =
        .next (routeset es .render ((caughtUp s).executes .render 0x21)) := by
      rw [exec_scene_served (i := .routeset addr _) rfl hs (by decide) (by rw [routeBytes_length]; omega) ?_]
      · show Host.Outcome.next (routeset (routeEntries _) _ _) = _
        rw [routeEntries_bytes es fits]
        rfl
      · rw [routeBytes_length]
        simpa [goodLength] using short
    have scene : ((caughtUp s).executes .render 0x21).scene = s.scene := caughtUp_scene s
    have clock : ((caughtUp s).executes .render 0x21).clock = s.clock := caughtUp_clock s
    rw [reach]
    refine ⟨fun busy => ?_, fun k e state at_k bad before => ?_, fun fresh state good hfresh => ?_⟩
    · rw [routeset_busy (by rw [scene]; exact busy), complete_executes]
    · rw [routeset_range (by rw [scene]; exact state) es .render at_k bad before, complete_executes]
    · obtain ⟨order, fitsLimit, -⟩ := pend
      have limit := pendingLimit_small s.clock.rateClass
      have fresh_eq : fresh = (newKeys es s.scene.pendingBank).length := hfresh
      have few : fresh ≤ es.length := by
        rw [hfresh]
        exact (List.length_filter_le ..).trans ((List.dedup_sublist _).length_le.trans (List.length_map ..).le)
      have clamps : (es.filter fun e : RouteEntry => decide (11 < e.k)).length ≤ es.length := List.length_filter_le ..
      refine ⟨fun full => ?_, fun room => ⟨applyRoutes es s.scene.pendingBank, ?_, ?_, applyRoutes_pairwise es order,
        fun key => applyRoutes_find es key order⟩⟩
      · rw [routeset_full (by rw [scene]; exact state) es .render good (by rw [scene, clock, ← fresh_eq]; exact full),
          complete_executes, scene, ← fresh_eq, cap16_of_le (by omega), cap16_of_le (by omega)]
      · rw [routeset_taken (by rw [scene]; exact state) es .render good (by rw [scene, clock, ← fresh_eq]; exact room),
          scene, ← fresh_eq, cap16_of_le (by omega), cap8_of_le (by omega), cap8_of_le (by omega),
          applyRoutes_length es order, ← fresh_eq, cap16_of_le (by omega)]
        have mark : (if 0 < (es.filter fun e : RouteEntry => decide (11 < e.k)).length then ResultCode.clamped else .ok) =
            if es.any (fun e : RouteEntry => 11 < e.k) then .clamped else .ok := by
          simp [List.length_pos_iff_exists_mem]
        rw [mark]
        exact congrArg _ (complete_executes { caughtUp s with scene := _ } ..)
      · rw [applyRoutes_length es order, fresh_eq]
  · have reach : exec (.routedrop addr (ks.flatMap pairBytes)) s =
        .next (routedrop ks .render ((caughtUp s).executes .render 0x22)) := by
      rw [exec_scene_served (i := .routedrop addr _) rfl hs (by decide) (by rw [pairBytes_length]; omega) ?_]
      · show Host.Outcome.next (routedrop (bytePairs _) _ _) = _
        rw [bytePairs_bytes ks fits]
        rfl
      · rw [pairBytes_length]
        simpa [goodLength] using short
    have scene : ((caughtUp s).executes .render 0x22).scene = s.scene := caughtUp_scene s
    rw [reach]
    refine ⟨fun busy => ?_, fun j k state at_j bad before => ?_, fun state good => ⟨_, rfl, ?_⟩⟩
    · rw [routedrop_busy (by rw [scene]; exact busy), complete_executes]
    · rw [routedrop_range (by rw [scene]; exact state) ks .render at_j bad before, complete_executes]
    · obtain ⟨order, fitsLimit, -, fields, -⟩ := pend
      have limit := pendingLimit_small s.clock.rateClass
      have named : (s.scene.pendingBank.filter fun e => !(ks.any fun k => e.input == k.1 && e.output == k.2)) =
          s.scene.pendingBank.filter fun e => !(ks.map fun k => keyOf k.1 k.2).contains e.key :=
        List.filter_congr fun e he => congrArg _ (keyNamed_eq ks (fun k hk => (good k hk).1) (fields e he).1)
      rw [named]
      have few := dropped_le order (ks.map fun k => keyOf k.1 k.2)
      rw [List.length_map] at few
      have less := List.length_filter_le (fun e : RouteEntry => !(ks.map fun k => keyOf k.1 k.2).contains e.key)
        s.scene.pendingBank
      rw [routedrop_taken (by rw [scene]; exact state) ks .render good rfl, scene, cap8_of_le (by omega),
        cap8_of_le (by omega), cap16_of_le (by omega)]
      exact congrArg _ (complete_executes { caughtUp s with scene := _ } ..)

end Sys2Proof.Machine
end

section
/-!
O42, O44, O49, O50: group mutes and the general call, the cue commands, the system's settings, PARTITION.
-/

namespace Sys2Proof.Machine

open Sys2Proof
/-! ## O42 -/

/-- One group's flag set, and no other (R140). -/
theorem setGroup_getLsbD (groups : Byte) {g : Nat} (hg : g ≤ 7) (on : Bool) {i : Nat} (hi : i < 8) :
    (setGroup groups g on).getLsbD i = if i = g then on else groups.getLsbD i := by
  have bit : ((1 : Byte) <<< g).getLsbD i = decide (i = g) := by
    interval_cases g <;> interval_cases i <;> rfl
  unfold setGroup
  cases on
  · rw [if_neg (by decide), BitVec.getLsbD_and, BitVec.getLsbD_not, bit]
    by_cases same : i = g <;> simp only [same, hi, decide_true, decide_false, if_true, if_false] <;> simp
  · rw [if_pos rfl, BitVec.getLsbD_or, bit]
    by_cases same : i = g <;> simp only [same, decide_true, decide_false, if_true, if_false] <;> simp

theorem Byte.toNat_beq_one (b : Byte) : (b.toNat == 1) = (b == 1) := by
  rw [Bool.eq_iff_iff, beq_iff_eq, beq_iff_eq]
  exact ⟨fun h => BitVec.eq_of_toNat_eq h, fun h => by rw [h]; rfl⟩

/-- A code that only the two values 0 and 1 have (spec/12). -/
theorem boolOf_byte {b : Byte} (h : b.toNat ≤ 1) : boolOf b.toNat = some (b == 1) := by
  rw [boolOf_of_le_one h, Byte.toNat_beq_one]

theorem groupset_range {g on : Byte} (bad : 7 < g.toNat ∨ 1 < on.toNat) (r : Role) (s : State) :
    groupset [g, on] r s = complete r .range [] s := by
  unfold groupset
  split
  · rfl
  next v known =>
    have small : ¬ 1 < on.toNat := fun c => by
      have unknown : boolOf (u8 [g, on] 1) = none := boolOf_of_gt c
      simp [unknown] at known
    exact if_pos (bad.resolve_right small)

theorem groupset_taken {g on : Byte} (hg : g.toNat ≤ 7) (hon : on.toNat ≤ 1) (r : Role) (s : State) :
    groupset [g, on] r s = complete r .ok (be 1 (bit (s.groups.getLsbD g.toNat)))
      { s with groups := setGroup s.groups g.toNat (on == 1) } := by
  have known : boolOf (u8 [g, on] 1) = some (on == 1) := boolOf_byte hon
  have low : ¬ 7 < u8 [g, on] 0 := Nat.not_lt.mpr hg
  simp only [groupset, known, if_neg low, groupStep]
  rfl

/-- The general-call flag set, with MUTE where the house mute changes (R142, R144). -/
theorem judgeHouseMute_call (s : State) (on : Bool) :
    judgeHouseMute s.houseMute 0 { s with gcMute := on } =
      if s.muteAccepted = true ∨ s.gcMute = on then { s with gcMute := on }
      else raise .mute [if on then 1 else 0, 0, if on then 1 else 0, 0] { s with gcMute := on } := by
  have house : ({ s with gcMute := on } : State).houseMute = (on || s.muteAccepted) := rfl
  have before : s.houseMute = (s.gcMute || s.muteAccepted) := rfl
  rw [judgeHouseMute, house, before, raiseIf_eq]
  by_cases line : s.muteAccepted = true
  · simp [line]
  · have line : s.muteAccepted = false := by simpa using line
    simp only [line, Bool.or_false, Bool.false_eq_true, false_or]
    by_cases same : s.gcMute = on
    · simp [same]
    · rw [if_neg same, if_pos (by simpa using Ne.symm same)]
      cases on <;> rfl

/-- Settles O42: GROUPSET, then the general call's bytes. -/
theorem mutes : Obligations.Mutes := by
  refine ⟨fun s addr g on hs => ?_, fun s rest line => ?_⟩
  · have reach : exec (.groupset addr [g, on]) s = .next (groupset [g, on] .system ((caughtUp s).executes .system 0x44)) :=
      exec_system_served (i := .groupset addr [g, on]) rfl hs (by decide) (by simp) rfl
    have groups : ((caughtUp s).executes .system 0x44).groups = s.groups := caughtUp_groups s
    refine ⟨fun bad => by rw [reach, groupset_range bad, complete_executes], fun hg hon =>
      ⟨setGroup s.groups g.toNat (on == 1), ?_, fun i hi => setGroup_getLsbD _ hg _ hi⟩⟩
    rw [reach, groupset_taken hg hon, groups, be_bit]
    exact congrArg _ (complete_executes { caughtUp s with groups := _ } ..)
  · have call (b : Byte) : exec (.generalCall (b :: rest)) s = .next (callByte b s) := by
      show Host.Outcome.next (takeCall (b :: rest) s) = _
      rw [takeCall, if_neg (by simp [line])]
    have set (on : Bool) : callByte (if on then 0x71 else 0x70) s = judgeHouseMute s.houseMute 0 { s with gcMute := on } := by
      cases on <;> rfl
    refine ⟨?_, fun b off on => ?_, fun on => ⟨fun same => ?_, fun free new => ?_⟩⟩
    · show Host.Outcome.next (takeCall [] s) = _
      rw [takeCall, if_neg (by simp [line])]
    · rw [call, callByte, if_neg off, if_neg on]
    · rw [call, set, judgeHouseMute_call, if_pos same]
    · rw [call, set, judgeHouseMute_call, if_neg (by simp [free, new])]

/-! ## O49 -/

theorem clampKx_eq (kx : Nat) : clampKx kx = max 5 (min kx 10) := by
  unfold clampKx
  split
  · omega
  · split <;> omega

theorem sideOf_byte {b : Byte} (h : b.toNat ≤ 1) : sideOf b.toNat = some (if b = 0 then .a else .b) := by
  obtain rfl | rfl : b = 0 ∨ b = 1 := by bv_omega
  · rfl
  · rfl

theorem policy_range {patch preferred : Byte} (bad : 1 < patch.toNat ∨ 1 < preferred.toNat) (kx : Byte) (r : Role)
    (s : State) : policy [patch, preferred, kx] r s = complete r .range [] s := by
  unfold policy
  split
  next v x hv hx =>
    have hv : boolOf patch.toNat = some v := hv
    have hx : sideOf preferred.toNat = some x := hx
    obtain bad | bad := bad
    · simp [boolOf_of_gt bad] at hv
    · simp [sideOf_of_gt bad] at hx
  · rfl

section Policy

variable {patch preferred kx : Byte} (hp : patch.toNat ≤ 1) (hf : preferred.toNat ≤ 1) (r : Role) {s : State}
include hp hf

theorem policy_busy (moving : s.sel.state.inTransition = true) :
    policy [patch, preferred, kx] r s = complete r .busy [] s := by
  have known : boolOf (u8 [patch, preferred, kx] 0) = some (patch == 1) := boolOf_byte hp
  have side : sideOf (u8 [patch, preferred, kx] 1) = some (if preferred = 0 then .a else .b) := sideOf_byte hf
  simp only [policy, known, side, moving, if_true]

theorem policy_taken (still : s.sel.state.inTransition = false) : policy [patch, preferred, kx] r s =
    complete r (if 5 ≤ kx.toNat ∧ kx.toNat ≤ 10 then .ok else .clamped)
      [patch, preferred, BitVec.ofNat 8 (max 5 (min kx.toNat 10))]
      { s with sel := { s.sel with
          patch := patch == 1, preferred := if preferred = 0 then .a else .b, policyKx := max 5 (min kx.toNat 10) } } := by
  have known : boolOf (u8 [patch, preferred, kx] 0) = some (patch == 1) := boolOf_byte hp
  have side : sideOf (u8 [patch, preferred, kx] 1) = some (if preferred = 0 then .a else .b) := sideOf_byte hf
  have field : u8 [patch, preferred, kx] 2 = kx.toNat := rfl
  have kept : max 5 (min kx.toNat 10) = kx.toNat ↔ 5 ≤ kx.toNat ∧ kx.toNat ≤ 10 := by omega
  have bytes : be 1 (bit (patch == 1)) ++ be 1 (Side.code (if preferred = 0 then .a else .b)) ++
      be 1 (max 5 (min kx.toNat 10)) = [patch, preferred, BitVec.ofNat 8 (max 5 (min kx.toNat 10))] := by
    obtain rfl | rfl : patch = 0 ∨ patch = 1 := by bv_omega
    all_goals
      obtain rfl | rfl : preferred = 0 ∨ preferred = 1 := by bv_omega
      all_goals simp only [be_one]; rfl
  simp only [policy, known, side, still, field, clampKx_eq, kept, bytes, Bool.false_eq_true, if_false]
  rfl

end Policy

/-- CALLOCK (R176). -/
theorem callock_locked {s : State} (lock : s.bus.lock = true) (r : Role) : callock r s = complete r .nothing [] s :=
  if_pos lock

theorem partition_locked {s : State} (lock : s.bus.lock = true) (p : List Byte) (r : Role) :
    partition p r s = complete r .locked [] s := if_pos lock

/-! ## NOTEROUTE (R185) -/

theorem targetOf_isSome (n : Nat) : (targetOf n).isSome = true ↔ n ≤ 3 ∨ n = 255 := by
  unfold targetOf
  split
  case h_6 h0 h1 h2 h3 none =>
    refine ⟨nofun, ?_⟩
    rintro (low | rfl)
    · interval_cases n <;> contradiction
    · contradiction
  all_goals simp

theorem pairOk_iff (v : Nat × Nat) : pairOk v = true ↔ 1 ≤ v.1 ∧ v.1 ≤ 16 ∧ (v.2 ≤ 3 ∨ v.2 = 255) := by
  simp only [pairOk, Bool.and_eq_true, decide_eq_true_eq, targetOf_isSome, and_assoc]

theorem targetByte_of {n : Nat} (h : n ≤ 3 ∨ n = 255) : targetByte ((targetOf n).getD none) = BitVec.ofNat 8 n := by
  obtain low | rfl := h
  · interval_cases n <;> rfl
  · rfl

theorem applyPairs_length (ps : List (Nat × Nat)) (map : List (Option Role)) : (applyPairs ps map).length = map.length := by
  unfold applyPairs
  induction ps generalizing map with
  | nil => rfl
  | cons v ps ih => rw [List.foldl_cons, ih, List.length_set]

/-- Each kind ends at its last target (R185). -/
theorem applyPairs_target {ps : List (Nat × Nat)} (good : ∀ d ∈ ps, 1 ≤ d.1 ∧ d.1 ≤ 16 ∧ (d.2 ≤ 3 ∨ d.2 = 255))
    (map : List (Option Role)) (whole : map.length = 16) {k : Nat} (one : 1 ≤ k) :
    targetByte ((applyPairs ps map).getD (k - 1) none) =
      ((ps.reverse.find? fun v => v.1 == k).map fun v => BitVec.ofNat 8 v.2).getD
        (targetByte (map.getD (k - 1) none)) := by
  unfold applyPairs
  induction ps using List.reverseRecOn with
  | nil => rfl
  | append_singleton ps v ih =>
    have last := good v (by simp)
    have ih := ih fun d hd => good d (by simp [hd])
    have kept : (ps.foldl (fun m v => m.set (v.1 - 1) ((targetOf v.2).getD none)) map).length = 16 :=
      (applyPairs_length ps map).trans whole
    rw [List.foldl_append, List.reverse_append]
    simp only [List.foldl_cons, List.foldl_nil, List.reverse_cons, List.reverse_nil, List.nil_append, List.singleton_append,
      List.find?_cons]
    by_cases same : v.1 = k
    · simp only [same, beq_self_eq_true]
      rw [List.getD_eq_getElem?_getD, List.getElem?_set_self (by omega), Option.getD_some, targetByte_of last.2.2]
      rfl
    · simp only [beq_eq_false_iff_ne.mpr same]
      rw [List.getD_eq_getElem?_getD, List.getElem?_set_ne (by omega), ← List.getD_eq_getElem?_getD]
      exact ih

/-- The kinds whose target changes, counted place by place (R185). -/
theorem changedKinds_eq {before after : List (Option Role)} (hb : before.length = 16) (ha : after.length = 16) :
    changedKinds before after =
      ((List.range 16).filter fun k => after.getD k none != before.getD k none).length := by
  have pairs : before.zip after = (List.range 16).map fun k => (before.getD k none, after.getD k none) := by
    refine List.ext_getElem (by simp [hb, ha]) fun k hk _ => ?_
    have small : k < 16 := by simpa [hb, ha] using hk
    simp [hb, ha, small]
  rw [changedKinds, pairs, List.filter_map, List.length_map]
  refine congrArg _ (List.filter_congr fun k _ => ?_)
  simp [bne_comm]

/-- Settles O49: POLICY, the calibration lock, and NOTEROUTE. -/
theorem systemSettings : Obligations.SystemSettings := by
  refine ⟨fun s c addr patch preferred kx hs hc => ?_, fun s addr hs => ?_, fun s c addr ps hs hc bytes few whole => ?_⟩
  · have reach : exec (.policy addr [patch, preferred, kx]) s =
        .next (policy [patch, preferred, kx] .system (c.executes .system 0x46)) := by
      rw [exec_system_served (i := .policy addr [patch, preferred, kx]) rfl hs (by decide) (by simp) rfl, hc]
      rfl
    rw [reach]
    refine ⟨fun bad => by rw [policy_range bad, complete_executes], fun hp hf moving => ?_, fun hp hf still => ?_⟩
    · rw [policy_busy hp hf .system (by exact moving), complete_executes]
    · rw [policy_taken hp hf .system (by exact still)]
      exact congrArg _ (complete_executes { c with sel := _ } ..)
  · have lockOf (code : Byte) : ((caughtUp s).executes .system code).bus.lock = s.bus.lock := by
      show (caughtUp s).bus.lock = _
      rw [caughtUp_bus]
    have reach : exec (.callock addr []) s = .next (callock .system ((caughtUp s).executes .system 0x48)) :=
      exec_system_served (i := .callock addr []) rfl hs (by decide) (by simp) rfl
    refine ⟨fun free => ?_, fun lock => ⟨?_, fun p hp => ?_, fun p hp => ?_⟩⟩
    · rw [reach, callock, if_neg (by simp [lockOf, free]), ← caughtUp_bus s]
      exact congrArg _ (complete_executes { caughtUp s with bus := { (caughtUp s).bus with lock := true } } ..)
    · rw [reach, callock_locked ((lockOf _).trans lock), complete_executes]
    · obtain ⟨source, house, n, rfl⟩ := List.length_eq_three.mp hp
      rw [exec_system_served (i := .clockset addr _) rfl hs (by decide) (by omega) (by rw [hp]; rfl)]
      show Host.Outcome.next (clockset [source, house, n] .system ((caughtUp s).executes .system 0x40)) = _
      rw [clockset_locked ((lockOf _).trans lock), complete_executes]
    · rw [exec_system_served (i := .partition addr p) rfl hs (by decide) (by omega) (by rw [hp]; rfl)]
      show Host.Outcome.next (partition p .system ((caughtUp s).executes .system 0x41)) = _
      rw [partition_locked ((lockOf _).trans lock), complete_executes]
  · have reach : exec (.noteroute addr (ps.flatMap pairBytes)) s =
        .next (noteroute ps .system (c.executes .system 0x47)) := by
      rw [exec_system_served (i := .noteroute addr _) rfl hs (by decide) (by rw [pairBytes_length]; omega)
        (by rw [pairBytes_length]; simpa [goodLength] using few), hc]
      show Host.Outcome.next (noteroute (bytePairs _) _ _) = _
      rw [bytePairs_bytes ps bytes]
      rfl
    have routing : (c.executes .system 0x47).notices.routing = s.notices.routing := by
      rw [hc]
      exact caughtUp_routing s
    rw [reach]
    refine ⟨fun k v at_k bad before => ?_, fun good => ?_⟩
    · have first : firstIndex (fun v : Nat × Nat => !pairOk v) ps = some k :=
        firstIndex_some at_k (by rw [Bool.not_eq_true', ← Bool.not_eq_true, pairOk_iff]; omega) fun d hd => by
          rw [(pairOk_iff d).mpr (before d hd)]
          rfl
      rw [noteroute, first]
      exact congrArg _ ((complete_executes ..).trans (by rw [be_one]))
    · have none : firstIndex (fun v : Nat × Nat => !pairOk v) ps = none :=
        firstIndex_none fun v hv => by
          rw [(pairOk_iff v).mpr (good v hv)]
          rfl
      have length : (applyPairs ps s.notices.routing).length = 16 := (applyPairs_length ..).trans whole
      refine ⟨applyPairs ps s.notices.routing, (applyPairs ps s.notices.routing).map targetByte ++
        be 1 (changedKinds s.notices.routing (applyPairs ps s.notices.routing)), ?_, length, by simp [length],
        fun k one most => ⟨?_, ?_⟩, ?_⟩
      · simp only [noteroute, none, routing]
        exact congrArg _ (complete_executes { c with notices :=
          { c.notices with routing := applyPairs ps s.notices.routing } } ..)
      · rw [List.getElem?_append_left (by simp [length]; omega), List.getElem?_map]
        have inside : k - 1 < (applyPairs ps s.notices.routing).length := by omega
        simp [inside]
      · rw [applyPairs_target good _ whole one]
        cases ps.reverse.find? fun v => v.1 == k <;> rfl
      · rw [List.getElem?_append_right (by simp [length]), changedKinds_eq whole length]
        simp [length, be_one]

/-! ## O44 -/

/-- A command of the cue list, in order and served, reaches its owner (R155, R170). -/
theorem exec_cue_served {i : Instr} {code : Byte} {addr : BitVec 7} {p : List Byte} {r : Role} {s : State}
    (hi : i.frame = some (code, addr, p)) (hs : s.Serves addr r) (hr : r = .render ∨ r = .system)
    (hc : code = 0x30 ∨ code = 0x31) (hp : p.length ≤ 250) (hl : goodLength code.toNat p.length = true) :
    exec i s = .next (Instr.owner i r (handedOver r code s)) := by
  refine exec_served hi hs hp (judge_none hp ?_ ?_ ?_) hl
  · obtain rfl | rfl := hc <;> rfl
  · obtain rfl | rfl := hr <;> obtain rfl | rfl := hc <;> rfl
  · obtain rfl | rfl := hc <;> rfl

theorem cueActionOf_of_gt {n : Nat} (h : 4 < n) : cueActionOf n = none := by
  match n, h with
  | k + 5, _ => rfl

theorem cueActionOf_of_le {n : Nat} (h : n ≤ 4) : ∃ a, cueActionOf n = some a ∧ a.code = n := by
  interval_cases n <;> exact ⟨_, rfl, rfl⟩

section Cuepost

variable {tag action arg : Byte} {trigger : Nat} (r : Role) {s : State}

theorem cuepost_range (bad : 4 < action.toNat) :
    cuepost ([tag] ++ be 5 trigger ++ [action, arg]) r s = complete r .range [] s := by
  have unknown : cueActionOf (u8 ([tag] ++ be 5 trigger ++ [action, arg]) 6) = none := cueActionOf_of_gt bad
  simp only [cuepost, unknown]

theorem cuepost_full (known : action.toNat ≤ 4) (full : 32 ≤ s.cues.length) :
    cuepost ([tag] ++ be 5 trigger ++ [action, arg]) r s = complete r .full [] s := by
  obtain ⟨a, ha, -⟩ := cueActionOf_of_le known
  have ha : cueActionOf (u8 ([tag] ++ be 5 trigger ++ [action, arg]) 6) = some a := ha
  simp only [cuepost, ha]
  exact if_pos full

theorem cuepost_taken (small : trigger < 2 ^ 40) {a : CueAction} (known : cueActionOf action.toNat = some a)
    (room : s.cues.length < 32) : cuepost ([tag] ++ be 5 trigger ++ [action, arg]) r s =
      complete r (if trigger ≤ s.sel.pos then .late else .ok)
        (be 1 (s.cues.length + 1) ++ be 1 (cueIndex trigger s.cues) ++ be 5 s.sel.pos)
        { s with cues := insertCue { tag := tag, poster := r, trigger := trigger, action := a, arg := arg
                                     late := decide (trigger ≤ s.sel.pos) } s.cues } := by
  have ha : cueActionOf (u8 ([tag] ++ be 5 trigger ++ [action, arg]) 6) = some a := known
  have spelled : field ([tag] ++ be 5 trigger ++ [action, arg]) 1 5 = trigger := by
    show ofBe (be 5 trigger) = _
    rw [ofBe_be, Nat.mod_eq_of_lt (by omega)]
  simp only [cuepost, ha, spelled]
  rw [if_neg (by exact Nat.not_le.mpr room)]
  simp only [decide_eq_true_eq]
  rfl

end Cuepost

/-- CUECANCEL (R158). -/
theorem cuecancel_eq (tag : Byte) (r : Role) (s : State) {kept : List Cue}
    (left : kept = s.cues.filter fun c : Cue => !(c.tag == tag && c.poster == r)) : cuecancel tag r s =
      if kept = s.cues then complete r .nothing [] s
      else complete r .ok (be 1 (s.cues.length - kept.length) ++ be 1 kept.length) { s with cues := kept } := by
  have same : kept.length = s.cues.length ↔ kept = s.cues :=
    ⟨fun h => left ▸ (List.filter_sublist (l := s.cues)).eq_of_length (left ▸ h), congrArg _⟩
  simp only [cuecancel, ← left, same]

/-- Settles O44: the place of a new cue, and the cues that are cancelled. -/
theorem cueList : Obligations.CueList := by
  refine ⟨fun s c addr r tag action arg trigger hs hr hc small => ?_, fun s addr r tag kept hs hr ok left => ?_⟩
  · have reach : exec (.cuepost addr ([tag] ++ be 5 trigger ++ [action, arg])) s =
        .next (cuepost ([tag] ++ be 5 trigger ++ [action, arg]) r (c.executes r 0x30)) := by
      rw [exec_cue_served (i := .cuepost addr _) rfl hs hr (.inl rfl) (by simp) (by simp [goodLength]), hc]
      rfl
    have cues : (c.executes r 0x30).cues = s.cues := by
      rw [hc]
      exact caughtUp_cues s
    rw [reach]
    refine ⟨fun bad => by rw [cuepost_range r bad, complete_executes], fun known full => ?_, fun known room ok => ?_⟩
    · rw [cuepost_full r known (by rw [cues]; exact full), complete_executes]
    · obtain ⟨a, ha, code⟩ := cueActionOf_of_le known
      obtain ⟨q, hq⟩ : ∃ q : Cue, q = ⟨tag, r, trigger, a, arg, decide (trigger ≤ c.sel.pos)⟩ := ⟨_, rfl⟩
      have posted := cuepost_taken (tag := tag) (arg := arg) r (s := c.executes r 0x30) small ha (by rw [cues]; exact room)
      obtain ⟨before, after, split, inserted, place, le, lt⟩ := insertCue_split q ok.2
      have pos : (c.executes r 0x30).sel.pos = c.sel.pos := rfl
      have trig : q.trigger = trigger := by rw [hq]
      rw [trig] at place le lt
      rw [cues, pos, ← hq, ← place, inserted, be_one, be_one] at posted
      refine ⟨q, before, after, ?_, split, le, lt, by rw [hq], by rw [hq], trig, by rw [hq]; exact code, by rw [hq],
        by rw [hq]⟩
      rw [posted]
      exact congrArg _ (complete_executes { c with cues := before ++ q :: after } ..)
  · have reach : exec (.cuecancel addr [tag]) s = .next (cuecancel tag r ((caughtUp s).executes r 0x31)) :=
      exec_cue_served (i := .cuecancel addr [tag]) rfl hs hr (.inr rfl) (by simp) rfl
    have cues : ((caughtUp s).executes r 0x31).cues = s.cues := caughtUp_cues s
    rw [reach, cuecancel_eq tag r _ (left.trans (by rw [cues])), cues]
    refine ⟨fun all => by rw [if_pos all, complete_executes], fun some => ?_⟩
    rw [if_neg some, be_one, be_one]
    exact congrArg _ (complete_executes { caughtUp s with cues := kept } ..)

/-! ## O50 -/

theorem Feed.repartitioned_kept {f : Feed} {pages : Nat} (h : f.setup.fits pages = true) (house : Rate) :
    f.repartitioned house pages = { feed := f.clearIntake 0, replaced := false, dropped := false } := if_pos h

theorem Feed.repartitioned_fallen {f : Feed} {pages : Nat} (h : f.setup.fits pages = false) (house : Rate) :
    f.repartitioned house pages = f.fallBack house pages := if_neg (by simp [h])

theorem Feed.repartitioned_replaced (f : Feed) (house : Rate) (pages : Nat) :
    (f.repartitioned house pages).replaced = !f.setup.fits pages := by
  cases h : f.setup.fits pages with
  | true => rw [Feed.repartitioned_kept h]; rfl
  | false => rw [Feed.repartitioned_fallen h]; rfl

theorem Feed.repartitioned_dropped (f : Feed) (house : Rate) (pages : Nat) :
    (f.repartitioned house pages).dropped = (!f.setup.fits pages && f.pendingPlay.isSome && decide (pages < 32)) := by
  cases h : f.setup.fits pages with
  | true => rw [Feed.repartitioned_kept h]; rfl
  | false =>
    rw [Feed.repartitioned_fallen h]
    simp [Feed.fallBack, defaultSetup_fits, ← decide_not]

/-- Whether a feed is placed after a new partition (R38, R45). -/
theorem Feed.repartitioned_fits (f : Feed) (house : Rate) (pages : Nat) :
    (f.repartitioned house pages).feed.setup.fits pages = (f.setup.fits pages || decide (32 ≤ pages)) := by
  cases h : f.setup.fits pages with
  | true => rw [Feed.repartitioned_kept h]; exact h
  | false => rw [Feed.repartitioned_fallen h]; exact defaultSetup_fits ..

/-- What a new partition leaves of a feed (R45). -/
theorem Feed.repartitioned_feed (f : Feed) (house : Rate) (pages : Nat) {g : Feed}
    (hg : g = (f.repartitioned house pages).feed) :
    (g.st = f.st ∧ g.completion = f.completion ∧ g.h = 0 ∧ g.s0 = 0 ∧ g.last0 = none ∧ g.last1 = none ∧
      g.sourceEnd = none ∧ g.watch.armed = false ∧ g.pace.line = false ∧ ∀ v ∈ g.ring, v = emptySlot) ∧
    (f.setup.fits pages = true → g.setup = f.setup ∧ g.pendingPlay = f.pendingPlay ∧ g.rs = f.rs) ∧
    (f.setup.fits pages = false →
      g.setup = { mode := .streaming, rate := house, speed := .one, n := 16, lanes := 1, dExp := 11, wExp := 3 } ∧
      g.rs.rNom = 268435456 ∧ g.pendingPlay = if 32 ≤ pages then f.pendingPlay else none) := by
  have nominal : (defaultSetup house).nominal house = 268435456 := by cases house <;> decide
  cases h : f.setup.fits pages with
  | true =>
    rw [hg, Feed.repartitioned_kept h]
    exact ⟨⟨rfl, rfl, rfl, rfl, rfl, rfl, rfl, rfl, rfl, fun v hv => List.eq_of_mem_replicate hv⟩,
      fun _ => ⟨rfl, rfl, rfl⟩, nofun⟩
  | false =>
    rw [hg, Feed.repartitioned_fallen h]
    refine ⟨⟨rfl, rfl, rfl, rfl, rfl, rfl, rfl, rfl, rfl, fun v hv => List.eq_of_mem_replicate hv⟩, nofun,
      fun _ => ⟨rfl, nominal, ?_⟩⟩
    simp [Feed.fallBack, defaultSetup_fits]

theorem Setup.tooBig_eq (u : Setup) (pages : Nat) : decide (pages * 1024 < 2 ^ u.dExp * u.n) = !u.fits pages := by
  rw [Setup.fits, ← decide_not, decide_eq_decide, Nat.not_le]
  rfl

/-- What a new partition leaves of a feed, its fit written out (R38, R45). -/
theorem Feed.repartitioned_spelled (f : Feed) {house class_ : Rate} (hclass : class_ = house) {pages : Nat} {v : FeedChange}
    (hv : v = f.repartitioned class_ pages) :
    v.feed.st = f.st ∧ v.feed.completion = f.completion ∧ v.feed.h = 0 ∧ v.feed.s0 = 0 ∧ v.feed.last0 = none ∧
    v.feed.last1 = none ∧ v.feed.sourceEnd = none ∧ v.feed.watch.armed = false ∧ v.feed.pace.line = false ∧
    (∀ w ∈ v.feed.ring, w = emptySlot) ∧
    (2 ^ f.setup.dExp * f.setup.n ≤ pages * 1024 →
      v.feed.setup = f.setup ∧ v.feed.pendingPlay = f.pendingPlay ∧ v.feed.rs = f.rs) ∧
    (pages * 1024 < 2 ^ f.setup.dExp * f.setup.n →
      v.feed.setup = { mode := .streaming, rate := house, speed := .one, n := 16, lanes := 1, dExp := 11, wExp := 3 } ∧
      v.feed.rs.rNom = 268435456 ∧
      v.feed.pendingPlay = if 32 ≤ pages then f.pendingPlay else none) := by
  subst hclass
  obtain ⟨⟨st, rec_, h, s0, l0, l1, se, armed, line, ring⟩, kept, fallen⟩ := Feed.repartitioned_feed f class_ pages (congrArg _ hv)
  refine ⟨st, rec_, h, s0, l0, l1, se, armed, line, ring, fun fit => kept ((Setup.fits_iff ..).mpr fit), fun big => fallen ?_⟩
  rwa [← Bool.not_eq_true, Setup.fits_iff, Nat.not_le]

/-- A feed's flags byte (R45). -/
theorem FeedChange.flags_repartitioned (f : Feed) (house : Rate) (pages : Nat) :
    (f.repartitioned house pages).flags pages =
      (if !f.setup.fits pages then 1 else 0) +
        (if !f.setup.fits pages && f.pendingPlay.isSome && decide (pages < 32) then 2 else 0) +
        (if f.setup.fits pages || decide (32 ≤ pages) then 4 else 0) := by
  rw [FeedChange.flags, Feed.repartitioned_replaced, Feed.repartitioned_dropped, Feed.repartitioned_fits]
  generalize f.setup.fits pages = fits
  generalize f.pendingPlay.isSome = held
  by_cases few : pages < 32
  · simp only [few, decide_true, Nat.not_le.mpr few, decide_false]
    cases fits <;> cases held <;> rfl
  · simp only [few, decide_false, Nat.not_lt.mp few, decide_true]
    cases fits <;> cases held <;> rfl

theorem OutRec.cutBy_eq (o : OutRec) (most : Nat) :
    o.cutBy most = (decide (most < o.delay) || o.pendingDelay.any fun v => decide (most < v)) := by
  unfold OutRec.cutBy
  cases o.pendingDelay <;> rfl

/-- No delay is cut where every delay and pending delay is within the new maximum. -/
theorem cutOutputs_pos_iff (outs : List OutRec) (most : Nat) :
    0 < cutOutputs outs most ↔
      ¬ (outs.all fun o => decide (o.delay ≤ most) && o.pendingDelay.all fun v => decide (v ≤ most)) = true := by
  simp only [cutOutputs, List.length_filter_pos_iff, OutRec.cutBy_eq, List.all_eq_true, not_forall]
  refine exists_congr fun o => ?_
  cases o.pendingDelay <;> simp [imp_iff_not_or]

section Partition

variable {s : State} (free : s.bus.lock = false) {a b d : Nat} (ha : a < 65536) (hb : b < 65536) (hd : d < 65536) (r : Role)
include free ha hb hd

/-- PARTITION's checks (R44). -/
theorem partition_fields : partition (be 2 a ++ be 2 b ++ be 2 d) r s =
    if 1024 < a + b + d then complete r .range [] s
    else if s.feedA.inPlay || s.feedB.inPlay then complete r .busy [] s
    else partitionTaken a b d r s := by
  have fa : field (be 2 a ++ be 2 b ++ be 2 d) 0 2 = a := by
    show ofBe (be 2 a) = _
    rw [ofBe_be, Nat.mod_eq_of_lt (by omega)]
  have fb : field (be 2 a ++ be 2 b ++ be 2 d) 2 2 = b := by
    show ofBe (be 2 b) = _
    rw [ofBe_be, Nat.mod_eq_of_lt (by omega)]
  have fd : field (be 2 a ++ be 2 b ++ be 2 d) 4 2 = d := by
    show ofBe (be 2 d) = _
    rw [ofBe_be, Nat.mod_eq_of_lt (by omega)]
  have outside : (1024 < a ∨ 1024 < b ∨ 1024 < d ∨ 1024 < a + b + d) ↔ 1024 < a + b + d := by omega
  simp only [partition, fa, fb, fd, free, outside, Bool.false_eq_true, if_false]

end Partition

/-- Settles O50: the checks, then the map, the feeds and the delays. -/
theorem partition_holds : Obligations.Partition := by
  intro s c addr a b d cap hs hc ha hb hd free hcap
  have reach : exec (.partition addr (be 2 a ++ be 2 b ++ be 2 d)) s =
      .next (partition (be 2 a ++ be 2 b ++ be 2 d) .system (c.executes .system 0x41)) := by
    rw [exec_system_served (i := .partition addr _) rfl hs (by decide) (by simp) (by simp [goodLength]), hc]
    rfl
  have lock : (c.executes .system 0x41).bus.lock = false := by
    show c.bus.lock = _
    rw [hc, caughtUp_bus, free]
  have outs : c.outs = s.outs := by rw [hc, caughtUp_outs]
  have house : c.clock.rateClass = s.clock.rateClass := by rw [hc, caughtUp_clock]
  have most : maxDelay d = cap - 1 := by rw [hcap]; rfl
  have inA : (c.executes .system 0x41).feedA = c.feedA := rfl
  have inB : (c.executes .system 0x41).feedB = c.feedB := rfl
  rw [reach, partition_fields lock ha hb hd, inA, inB]
  refine ⟨fun outside => by rw [if_pos outside, complete_executes], fun inside busy => ?_, fun inside restA restB => ?_⟩
  · rw [if_neg (by omega), if_pos (by simpa using busy), complete_executes]
  · obtain ⟨fa, hfa⟩ : ∃ v, v = c.feedA.repartitioned c.clock.rateClass a := ⟨_, rfl⟩
    obtain ⟨fb, hfb⟩ : ∃ v, v = c.feedB.repartitioned c.clock.rateClass b := ⟨_, rfl⟩
    refine ⟨{ c with
        pagesA := a, pagesB := b, pagesD := d, feedA := fa.feed, feedB := fb.feed
        outs := s.outs.map fun o => o.reclamped (maxDelay d) },
      if 0 < cutOutputs s.outs (maxDelay d) ∨ fa.replaced ∨ fb.replaced ∨ fa.dropped ∨ fb.dropped then .clamped else .ok,
      BitVec.ofNat 8 (cutOutputs s.outs (maxDelay d)), fa.flags a, fb.flags b, ?_, ?_, ?_, ?_, ?_, ?_⟩
    · rw [if_neg (by omega), if_neg (by simp [restA, restB]), ← complete_executes, partitionTaken, hcap, hfa, hfb,
        be_one, List.append_assoc, ← outs]
      rfl
    · rw [most]
      rfl
    · rintro x pages (⟨rfl, rfl⟩ | ⟨rfl, rfl⟩)
      · exact Feed.repartitioned_spelled c.feedA house hfa
      · exact Feed.repartitioned_spelled c.feedB house hfb
    · rw [BitVec.toNat_ofNat, cutOutputs, most]
      simp only [OutRec.cutBy_eq]
    · rintro f pages flags replaced (same | same) rfl
      · obtain ⟨rfl, rfl, rfl⟩ : f = c.feedA ∧ pages = a ∧ flags = fa.flags a := by simpa using same
        rw [hfa, FeedChange.flags_repartitioned, Setup.tooBig_eq, Bool.not_not]
      · obtain ⟨rfl, rfl, rfl⟩ : f = c.feedB ∧ pages = b ∧ flags = fb.flags b := by simpa using same
        rw [hfb, FeedChange.flags_repartitioned, Setup.tooBig_eq, Bool.not_not]
    · have replacedA : fa.replaced = !c.feedA.setup.fits a := by rw [hfa, Feed.repartitioned_replaced]
      have replacedB : fb.replaced = !c.feedB.setup.fits b := by rw [hfb, Feed.repartitioned_replaced]
      have droppedA : fa.dropped = true → fa.replaced = true := by
        rw [hfa, Feed.repartitioned_dropped, Feed.repartitioned_replaced]
        simp +contextual
      have droppedB : fb.dropped = true → fb.replaced = true := by
        rw [hfb, Feed.repartitioned_dropped, Feed.repartitioned_replaced]
        simp +contextual
      have changed : (0 < cutOutputs s.outs (maxDelay d) ∨ fa.replaced = true ∨ fb.replaced = true ∨ fa.dropped = true ∨
            fb.dropped = true) ↔
          ¬ (2 ^ c.feedA.setup.dExp * c.feedA.setup.n ≤ a * 1024 ∧ 2 ^ c.feedB.setup.dExp * c.feedB.setup.n ≤ b * 1024 ∧
            (s.outs.all fun o => decide (o.delay ≤ maxDelay d) && o.pendingDelay.all fun v => decide (v ≤ maxDelay d)) =
              true) := by
        rw [cutOutputs_pos_iff, ← Setup.fits_iff, ← Setup.fits_iff]
        grind
      rw [← most, if_congr changed rfl rfl, ite_not]

end Sys2Proof.Machine
end

section
/-!
O41, O45, O48, O51: FLUSH, OUTSET, the cue pass and the status commands.
-/

namespace Sys2Proof.Machine

open Sys2Proof

/-! ## O51 -/

theorem caughtUp_eq (s : State) :
    caughtUp s = { s with feedA := (caughtUp s).feedA, feedB := (caughtUp s).feedB, sel := (caughtUp s).sel
                          notices := (caughtUp s).notices } := by
  obtain ⟨c, hc⟩ : ∃ c, c = caughtUp s := ⟨_, rfl⟩
  have out : c.outside = s.outside := by rw [hc, caughtUp_outside]
  rw [← hc]
  cases c
  cases s
  simp_all [State.outside]

/-- The role whose command awaits in the selector (R100, R101). -/
def AwaitedOrder.asker : AwaitedOrder → Role
  | .stop r _ _ => r
  | .onair _ => .system

/-- The data with which FLUSH answers an awaiting command (R59, R108). -/
def AwaitedOrder.flushData : AwaitedOrder → List Byte
  | .stop _ _ _ => [0]
  | .onair _ => []

/-- The interface with an awaiting command answered NOTHING (R108). -/
def Bus.dropped (b : Bus) (e : Awaiting) : Bus :=
  b.answered e.order.asker (b.slots.get e.order.asker).code .nothing e.order.flushData

theorem answerAwaiting_eq (s : State) : answerAwaiting s = { s with bus := s.sel.awaiting.foldl Bus.dropped s.bus } := by
  have each (es : List Awaiting) : ∀ u : State,
      es.foldl (fun u e => orderDropped e.order u) u = { u with bus := es.foldl Bus.dropped u.bus } := by
    induction es with
    | nil => exact fun u => rfl
    | cons e es ih =>
      intro u
      obtain ⟨o, due⟩ := e
      cases o <;> exact ih _
  exact each _ s

/-- What a role's intake slot and record hold. -/
def Bus.held (b : Bus) (r : Role) : IntakeSlot × Response := (b.slots.get r, b.records.get r)

theorem Bus.held_answered (b : Bus) (r q : Role) (code : Byte) (res : ResultCode) (d : List Byte) :
    (b.answered r code res d).held q =
      if q = r then (.free, { state := .done, result := res, echo := code, data := d }) else b.held q := by
  simp only [Bus.held, Bus.answered, PerRole.get_set]
  split <;> rfl

/-- Answering the commands that await keeps what a role holds with none among them. -/
theorem Bus.held_dropped_other {es : List Awaiting} {q : Role} (h : ∀ e ∈ es, e.order.asker ≠ q) (b : Bus) :
    (es.foldl Bus.dropped b).held q = b.held q := by
  induction es generalizing b with
  | nil => rfl
  | cons e es ih =>
    rw [List.foldl_cons, ih fun e' he' => h e' (.tail _ he'), Bus.dropped.eq_def, Bus.held_answered,
      if_neg (h e (.head _)).symm]

theorem Bus.foldl_dropped_rest (es : List Awaiting) (b : Bus) :
    { es.foldl Bus.dropped b with slots := b.slots, records := b.records } = b := by
  induction es generalizing b with
  | nil => rfl
  | cons e es ih =>
    rw [List.foldl_cons]
    exact congrArg (fun u : Bus => { u with slots := b.slots, records := b.records }) (ih (b.dropped e))

/-- A role whose one awaiting command FLUSH answers reads that answer (R59, R108). -/
theorem Bus.held_dropped_own {before after : List Awaiting} {e : Awaiting} {r : Role} (own : e.order.asker = r)
    (alone : ∀ e' ∈ before ++ after, e'.order.asker ≠ r) (b : Bus) :
    ((before ++ e :: after).foldl Bus.dropped b).held r =
      (.free, { state := .done, result := .nothing, echo := (b.slots.get r).code, data := e.order.flushData }) := by
  subst own
  have kept : (before.foldl Bus.dropped b).slots.get e.order.asker = b.slots.get e.order.asker :=
    congrArg Prod.fst (Bus.held_dropped_other (fun e' h => alone e' (List.mem_append_left _ h)) b)
  rw [List.foldl_append, List.foldl_cons, Bus.held_dropped_other fun e' h => alone e' (List.mem_append_right _ h),
    Bus.dropped.eq_def, Bus.held_answered, if_pos rfl, kept]

/-- The interface after FLUSH has answered the commands that awaited and those of the scene store (R108, R131). -/
def State.flushedBus (u : State) : Bus :=
  let b := u.sel.awaiting.foldl Bus.dropped u.bus
  if u.scene.copy != .none || u.scene.take != .none
  then b.answered .render (b.slots.get .render).code .nothing [] else b

theorem flush_eq (u : State) :
    flush u = { u with
      feedA := u.feedA.flushed u.clock.rateClass, feedB := u.feedB.flushed u.clock.rateClass, sel := u.sel.flushed
      scene := sceneReset, outs := u.outs.map OutRec.flushed, groups := 0, cues := []
      bus := { u.flushedBus with flush := some u.flushFinds } } := by
  rw [flush, answerAwaiting_eq]
  rfl

theorem State.flushedBus_lock (u : State) : u.flushedBus.lock = u.bus.lock := by
  have kept := congrArg Bus.lock (Bus.foldl_dropped_rest u.sel.awaiting u.bus)
  unfold State.flushedBus
  dsimp only
  split <;> exact kept

/-- FLUSH's answers to the scene store's commands leave the other roles alone (R131). -/
theorem State.flushedBus_held {u : State} {r : Role} (h : r ≠ .render) :
    u.flushedBus.held r = (u.sel.awaiting.foldl Bus.dropped u.bus).held r := by
  unfold State.flushedBus
  dsimp only
  split
  · rw [Bus.held_answered, if_neg h]
  · rfl

theorem Feed.flushed_eq (f : Feed) (house : Rate) :
    f.flushed house = { f with
          ring := List.replicate (2 ^ f.setup.dExp / 32)
            { stamp := none, state := .empty, got := { l0 := false, l1 := false } }
          h := 0, s0 := 0, last0 := none, last1 := none, sourceEnd := none, pace := (f.flushed house).pace
          watch := (f.flushed house).watch, st := .idle, role := .none, ending := none, completion := none, pendingPlay := none
          rs := { rNom := f.setup.nominal house, r := f.setup.nominal house
                  acc := 0, i := 0, phi := 0, held := false, servoErr := 0, clamped := false, underrun := false } } := rfl


/-- The answer that ends a FLUSH in execution (R177). -/
theorem flushComplete_found {s : State} {v : FlushFound} {code : Byte} (line : s.resetLine = false)
    (found : s.bus.flush = some v) (slot : s.bus.slots.get .system = .executing code) :
    flushComplete s = ({ s with bus := s.bus.flushDone } : State).answered .system code .ok v.bytes := by
  unfold flushComplete
  rw [if_neg (by simp [line]), found]
  exact complete_of_executing (t := { s with bus := s.bus.flushDone }) slot .ok v.bytes

/-- Settles O51: what FLUSH leaves, the awaiting commands that it answers, and the answer that ends it. -/
theorem flush_holds : Obligations.Flush := by
  refine ⟨fun s c addr hs hc => ?_, fun s v line found slot routes cues => ?_, fun s none => ?_⟩
  · obtain ⟨u, hu⟩ : ∃ u, u = c.executes .system 0x49 := ⟨_, rfl⟩
    have reach : exec (.flush addr []) s = .next (flush u) := by
      rw [exec_system_served (i := .flush addr []) rfl hs (by decide) (by simp) (by simp [goodLength]), hu, hc]
      rfl
    have awaiting : u.sel.awaiting = s.sel.awaiting := by rw [hu, hc]; exact caughtUp_awaiting s
    have scene : u.scene = s.scene := by rw [hu, hc]; exact caughtUp_scene s
    have outs : u.outs = s.outs := by rw [hu, hc]; exact caughtUp_outs s
    have house : u.clock.rateClass = s.clock.rateClass := by rw [hu, hc]; exact congrArg Clock.rateClass (caughtUp_clock s)
    have slotOf {r : Role} (h : r ≠ .system) : u.bus.slots.get r = s.bus.slots.get r := by
      rw [hu, hc]
      show ((caughtUp s).bus.slots.set .system _).get r = _
      rw [PerRole.get_set, if_neg h, caughtUp_bus]
    have shown {r : Role} (h : r ≠ .render) :
        ((flush u).bus.slots.get r, (flush u).bus.records.get r) = (s.sel.awaiting.foldl Bus.dropped u.bus).held r := by
      rw [flush_eq, ← awaiting]
      exact State.flushedBus_held h
    have same : u = { s with feedA := c.feedA, feedB := c.feedB, sel := c.sel, bus := s.bus.handedOver .system 0x49, notices := c.notices } := by
      rw [hu, hc]
      exact congrArg (fun v : State => v.executes .system 0x49) (caughtUp_eq s)
    have ofFeed (x : Side) : (flush u).feed x = (c.feed x).flushed s.clock.rateClass := by
      rw [flush_eq, ← house, hu]
      cases x <;> rfl
    refine ⟨flush u, reach, fun stops => ?_, ?_, ?_, ?_, ?_, ?_, ?_, ?_, ?_, ?_, ?_, ?_, ?_, ?_, ?_, fun x => ?_,
      fun x => ?_, ?_, ?_, ?_, ?_⟩
    · have others : ∀ e ∈ s.sel.awaiting, e.order.asker ≠ .system := fun e he => by
        obtain ⟨q, x, h, other, order⟩ := stops e he
        rw [order]
        exact other
      have kept := shown (r := .system) (by decide)
      rw [Bus.held_dropped_other others] at kept
      exact (congrArg Prod.fst kept).trans (by rw [same]; rfl)
    · rw [flush_eq]
      show some u.flushFinds = _
      rw [State.flushFinds, same]
    · rw [flush_eq]
    · rw [flush_eq]; exact ⟨rfl, rfl, rfl, rfl, rfl, rfl⟩
    · rw [flush_eq]
    · rw [flush_eq, outs]; rfl
    all_goals try (rw [flush_eq]; rfl)
    · rw [flush_eq, hu]; rfl
    · rw [ofFeed]; exact Feed.flushed_eq ..
    · rw [ofFeed]; exact ⟨rfl, rfl, rfl, rfl, rfl, rfl, rfl, rfl⟩
    · rw [flush_eq, same]
    · rw [flush_eq]
      exact (State.flushedBus_lock u).trans (by rw [same]; rfl)
    · intro code asked others slot
      have kept : (s.sel.awaiting.foldl Bus.dropped u.bus).held .render = u.bus.held .render :=
        Bus.held_dropped_other (fun e he => by
          obtain ⟨o, due⟩ := e
          cases o with
          | onair => simp [AwaitedOrder.asker]
          | stop r x h =>
            rintro rfl
            exact others _ he x h rfl) _
      have answered : u.flushedBus.held .render =
          (.free, { state := .done, result := .nothing, echo := code, data := [] }) := by
        have waits : (s.scene.copy != .none || s.scene.take != .none) = true := by
          simpa [or_comm] using asked
        rw [State.flushedBus, awaiting, scene]
        rw [if_pos waits, Bus.held_answered, if_pos rfl,
          show PerRole.get _ Role.render = u.bus.slots.get .render from congrArg Prod.fst kept, slotOf (by decide), slot]
        rfl
      rw [flush_eq]
      exact ⟨congrArg Prod.fst answered, congrArg Prod.snd answered⟩
    · intro before after r x h due code split alone feeds slot
      have notRender : r ≠ .render := by rintro rfl; simp at feeds
      have notSystem : r ≠ .system := by rintro rfl; simp at feeds
      have others : ∀ e ∈ before ++ after, e.order.asker ≠ r := by
        intro e he
        obtain ⟨o, d⟩ := e
        cases o with
        | onair => exact notSystem.symm
        | stop q y k =>
          rintro rfl
          exact alone _ he y k rfl
      have answered := shown notRender
      rw [split, Bus.held_dropped_own (e := ⟨.stop r x h, due⟩) (r := r) rfl others, slotOf notSystem, slot] at answered
      exact ⟨congrArg Prod.fst answered, congrArg Prod.snd answered⟩
  · show Host.Outcome.next (flushComplete s) = _
    rw [flushComplete_found line found slot, FlushFound.bytes, cap16_of_le (by omega), cap8_of_le (by omega), be_one]
    rfl
  · show Host.Outcome.next (flushComplete s) = _
    rw [flushComplete, none]
    cases s.resetLine <;> rfl

/-! ## O41 -/

theorem OutRec.takeDelay_same (o : OutRec) : o.takeDelay o.delayToRun = (o, 0) := if_pos rfl

theorem OutRec.takeDelay_replaced {o : OutRec} {v d : Nat} (held : o.pendingDelay = some v) (h : d ≠ v) :
    o.takeDelay d = ({ o with pendingDelay := some d }, 3) := by
  rw [OutRec.takeDelay, if_neg (by simpa [OutRec.delayToRun, held] using h), held]

theorem OutRec.takeDelay_silent {o : OutRec} {d : Nat} (none : o.pendingDelay = none) (h : d ≠ o.delay) (m : o.m = 0) :
    o.takeDelay d = ({ o with delay := d }, 1) := by
  rw [OutRec.takeDelay, if_neg (by simpa [OutRec.delayToRun, none] using h), none]
  exact if_pos m

theorem OutRec.takeDelay_ducked {o : OutRec} {d : Nat} (none : o.pendingDelay = none) (h : d ≠ o.delay) (m : o.m ≠ 0) :
    o.takeDelay d = ({ o with pendingDelay := some d }, 2) := by
  rw [OutRec.takeDelay, if_neg (by simpa [OutRec.delayToRun, none] using h), none]
  exact if_neg m

/-- Taking a delay changes the delay and the pending delay alone. -/
theorem OutRec.takeDelay_fields (o : OutRec) (d : Nat) :
    (o.takeDelay d).1 = { o with delay := (o.takeDelay d).1.delay, pendingDelay := (o.takeDelay d).1.pendingDelay } := by
  unfold OutRec.takeDelay
  split
  · rfl
  · split
    · rfl
    · split <;> rfl

theorem State.onOut_of {s : State} {k : Nat} {o : OutRec} (h : s.outs[k]? = some o) (g : OutRec → OutRec) :
    s.onOut k g = { s with outs := s.outs.set k (g o) } := by
  rw [State.onOut, List.modify_eq_set_getElem?, h]
  rfl

theorem State.onOut_kept {s : State} {k : Nat} {o : OutRec} {g : OutRec → OutRec} (h : s.outs[k]? = some o) (hg : g o = o) :
    s.onOut k g = s := by
  obtain ⟨lt, rfl⟩ := List.getElem?_eq_some_iff.mp h
  rw [State.onOut_of h, hg, List.set_getElem_self]

/-- A signed field of three bytes is negative exactly when its top bit is set (spec/12). -/
theorem fieldInt_neg_iff {p : List Byte} {off v : Nat} (h : field p off 3 = v) (hv : v < 2 ^ 24) :
    fieldInt p off < 0 ↔ 2 ^ 23 ≤ v := by
  rw [fieldInt, h, BitVec.toInt_neg_iff, BitVec.toNat_ofNat, Nat.mod_eq_of_lt hv]
  omega

section Outset

variable {s : State} {k own mask : Byte} {trim delay : Nat} (ht : trim < 2 ^ 24) (hd : delay < 2 ^ 16) (r : Role)

/-- The payload of an OUTSET (spec/12). -/
def outsetBytes (k own mask : Byte) (trim delay : Nat) : List Byte := [k] ++ be 3 trim ++ be 2 delay ++ [own, mask]

include ht in
theorem outsetBytes_trim : field (outsetBytes k own mask trim delay) 1 3 = trim := by
  show ofBe (be 3 trim) = _
  rw [ofBe_be, Nat.mod_eq_of_lt (by omega)]

include hd in
theorem outsetBytes_delay : field (outsetBytes k own mask trim delay) 4 2 = delay := by
  show ofBe (be 2 delay) = _
  rw [ofBe_be, Nat.mod_eq_of_lt (by omega)]

include ht in
theorem outsetFault_spelled : outsetFault (outsetBytes k own mask trim delay) =
    if 63 < k.toNat then some 0 else if 2 ^ 23 ≤ trim then some 1 else if 1 < own.toNat then some 6 else none := by
  unfold outsetFault
  simp only [fieldInt_neg_iff (outsetBytes_trim ht) ht]
  rfl

include ht hd in
/-- An OUTSET whose fields are in range (R146, R147). -/
theorem outset_inRange {o : OutRec} (hk : k.toNat ≤ 63) (trimmed : trim < 2 ^ 23) (owned : own.toNat ≤ 1)
    (held : s.outs[k.toNat]? = some o) {d : Nat} (clamped : d = min delay (maxDelay s.pagesD)) {q : OutRec} {action : Nat}
    (taken : ({ o with trim := trim, ownMute := own == 1, mask := mask } : OutRec).takeDelay d = (q, action)) :
    outset (outsetBytes k own mask trim delay) r s =
      if s.bus.lock = true ∧ ¬ (trim = o.trim ∧ d = o.delayToRun) then complete r .locked [] s
      else complete r (if d = delay then .ok else .clamped)
        (be 3 trim ++ be 2 q.delay ++ pendingBytes q.pendingDelay ++ [own, mask] ++ be 2 d ++ be 1 action)
        { s with outs := s.outs.set k.toNat q } := by
  have ownBytes : be 1 own.toNat = [own] := by rw [be_one, BitVec.ofNat_toNat, BitVec.setWidth_eq]
  have recOf : s.outs.getD k.toNat outReset = o := by rw [List.getD_eq_getElem?_getD, held]; rfl
  have ownOf : (own.toNat == 1) = (own == 1) := Byte.toNat_beq_one own
  have inRange : outsetFault (outsetBytes k own mask trim delay) = none := by
    rw [outsetFault_spelled ht, if_neg (by omega), if_neg (by omega), if_neg (by omega)]
  unfold outset
  rw [inRange]
  dsimp only
  rw [outsetBytes_trim ht, outsetBytes_delay hd, show u8 (outsetBytes k own mask trim delay) 0 = k.toNat from rfl,
    show u8 (outsetBytes k own mask trim delay) 6 = own.toNat from rfl,
    show (outsetBytes k own mask trim delay).getD 7 0 = mask from rfl, recOf, ownOf, ← clamped, taken, State.onOut_of held,
    ownBytes, List.append_assoc (_ ++ pendingBytes _)]
  rfl

end Outset

/-- Settles O41: what OUTSET refuses and stores, and the end of a duck. -/
theorem outset_holds : Obligations.Outset := by
  refine ⟨fun s addr k own mask trim delay d hs ht hd clamped => ?_, fun s k o line running held => ?_⟩
  · obtain ⟨u, hu⟩ : ∃ u, u = (caughtUp s).executes .system 0x42 := ⟨_, rfl⟩
    have reach : exec (.outset addr ([k] ++ be 3 trim ++ be 2 delay ++ [own, mask])) s =
        .next (outset (outsetBytes k own mask trim delay) .system u) := by
      rw [exec_system_served (i := .outset addr _) rfl hs (by decide) (by simp) (by simp [goodLength]), hu]
      rfl
    have outsOf : u.outs = s.outs := by rw [hu]; exact caughtUp_outs s
    have pagesOf : u.pagesD = s.pagesD := by rw [hu]; exact caughtUp_pagesD s
    have lockOf : u.bus.lock = s.bus.lock := by
      rw [hu]
      show (caughtUp s).bus.lock = _
      rw [caughtUp_bus]
    have refused {off : Nat} (h : outsetFault (outsetBytes k own mask trim delay) = some off) :
        outset (outsetBytes k own mask trim delay) .system u =
          (caughtUp s).answered .system 0x42 .range [BitVec.ofNat 8 off] := by
      unfold outset
      rw [h, hu]
      exact (complete_executes ..).trans (by rw [be_one])
    refine ⟨fun bad => ?_, fun hk bad => ?_, fun hk trimmed bad => ?_, fun o hk trimmed owned held => ⟨?_, ?_⟩⟩
    · rw [reach, refused (off := 0) (by rw [outsetFault_spelled ht, if_pos bad])]
      rfl
    · rw [reach, refused (off := 1) (by rw [outsetFault_spelled ht, if_neg (by omega), if_pos bad])]
      rfl
    · rw [reach, refused (off := 6) (by rw [outsetFault_spelled ht, if_neg (by omega), if_neg (by omega), if_pos bad])]
      rfl
    · intro lock moved
      rw [reach, outset_inRange ht hd _ hk trimmed owned ((outsOf).symm ▸ held) (pagesOf.symm ▸ clamped) rfl,
        if_pos ⟨lockOf.trans lock, fun same => moved.elim (fun h => h same.1) (fun h => h same.2)⟩, hu, complete_executes]
    · intro allowed
      obtain ⟨stored, hst⟩ : ∃ v : OutRec, v = { o with trim := trim, ownMute := own == 1, mask := mask } := ⟨_, rfl⟩
      obtain ⟨⟨q, action⟩, taken⟩ : ∃ v, stored.takeDelay d = v := ⟨_, rfl⟩
      have fields := stored.takeDelay_fields d
      have pendingOf : stored.pendingDelay = o.pendingDelay := by rw [hst]
      have delayOf : stored.delay = o.delay := by rw [hst]
      have silentOf : stored.m = o.m := by rw [hst]
      rw [taken] at fields
      have unmoved : ¬ (u.bus.lock = true ∧ ¬ (trim = o.trim ∧ d = o.delayToRun)) := by
        rintro ⟨lock, moved⟩
        rw [lockOf] at lock
        obtain free | same := allowed
        · simp [lock] at free
        · exact moved same
      have within : (d = delay) ↔ delay ≤ maxDelay s.pagesD := by rw [clamped]; omega
      refine ⟨q, BitVec.ofNat 8 action, ?_, ?_, fun same => ?_, fun other none silent => ?_, fun other none loud => ?_,
        fun v waits other => ?_⟩
      · rw [reach, outset_inRange ht hd _ hk trimmed owned ((outsOf).symm ▸ held) (pagesOf.symm ▸ clamped) (hst ▸ taken),
          if_neg unmoved, if_congr within rfl rfl, be_one, outsOf, hu]
        refine congrArg Host.Outcome.next ((complete_executes { caughtUp s with outs := s.outs.set k.toNat q } ..).trans ?_)
        cases q.pendingDelay <;> rfl
      · exact fields.trans (by rw [hst])
      · rw [show d = stored.delayToRun by rw [same, OutRec.delayToRun, pendingOf, delayOf], OutRec.takeDelay_same] at taken
        cases taken
        rw [pendingOf, delayOf]
        rfl
      · rw [OutRec.takeDelay_silent (pendingOf.trans none) (delayOf.symm ▸ other) (silentOf.trans silent)] at taken
        cases taken
        rw [← none, ← pendingOf]
        rfl
      · rw [OutRec.takeDelay_ducked (pendingOf.trans none) (delayOf.symm ▸ other) (silentOf ▸ loud)] at taken
        cases taken
        rw [← delayOf]
        rfl
      · rw [OutRec.takeDelay_replaced (pendingOf.trans waits) other] at taken
        cases taken
        rw [← delayOf]
        rfl
  · have act : exec (.duckEnd k) s = .next (s.onOut k OutRec.duckEnds) := by
      show Host.Outcome.next (duckEnd k s) = _
      rw [duckEnd, if_neg (by simp [line, State.starting, running])]
    refine ⟨fun d waits pos last free => ?_, fun d waits m => ?_, fun h => ?_⟩
    · rw [act, State.onOut_of held, OutRec.duckEnds, waits]
      simp only [if_neg (Nat.pos_iff_ne_zero.mp pos)]
      rw [if_pos ⟨last, free⟩]
    · rw [act, State.onOut_of held, OutRec.duckEnds, waits]
      simp only [if_pos m]
    · rw [act, State.onOut_kept held]
      obtain waits | loud := h
      · rw [OutRec.duckEnds, waits]
      · have high : ¬ (o.m ≤ Config.muteStep ∧ o.stepTaken = false) := fun h => Nat.not_le.mpr loud h.1
        unfold OutRec.duckEnds
        split
        · rw [if_neg (by omega), if_neg high]
        · rfl

/-! ## O45 -/

theorem takeBank_cues (s : State) : (takeBank s).2.2.cues = s.cues := by
  unfold takeBank
  split <;> rfl

theorem groupStep_cues (g : Nat) (on : Bool) (s : State) : (groupStep g on s).2.cues = s.cues := by
  unfold groupStep
  split <;> rfl

/-- No action posts or cancels a cue (R160). -/
theorem cueAct_cues (c : Cue) (s : State) : (cueAct c s).2.cues = s.cues := by
  unfold cueAct
  split
  · exact takeBank_cues s
  · exact groupStep_cues ..
  · exact groupStep_cues ..
  · exact State.cues_of_outside (onairSteps_outside ..)
  · rfl

theorem fireCue_cues (c : Cue) (s : State) : (fireCue c s).cues = s.cues := cueAct_cues c s

theorem fireCues_cues (due : List Cue) (s : State) : (due.foldl (fun t c => fireCue c t) s).cues = s.cues :=
  foldl_keeps (P := fun t => t.cues = s.cues) (fun t c ht => (fireCue_cues c t).trans ht) due rfl

theorem fireCue_of {s t : State} {c : Cue} {res : ResultCode} (h : cueAct c s = (res, t)) :
    fireCue c s = raiseIf (c.late || res != .ok || c.action == .mark) .cue (c.detail res) t := by rw [fireCue, h]

/-- The action byte of a CUE notice (spec/12). -/
theorem Cue.detail_eq (c : Cue) (res : ResultCode) :
    c.detail res = [c.tag,
      BitVec.ofNat 8 (c.action.code + (if c.late then 8 else 0) + if c.poster = .system then 16 else 0),
      BitVec.ofNat 8 res.code, 0] := by
  rw [Cue.detail, be_one, be_one]
  cases c.late <;> cases c.poster <;> rfl

theorem takeBank_sealed {s : State} {kr : Nat} (h : s.scene.state = .sealed kr) :
    takeBank s = (.ok, s.scene.takeCounts s.clock.rateClass kr,
      raiseIf (decide (0 < (s.scene.takeCounts s.clock.rateClass kr).cut)) .cutrelease
        (be 2 (s.scene.takeCounts s.clock.rateClass kr).cut ++ be 2 (s.scene.takeCounts s.clock.rateClass kr).releasing)
        { s with scene := s.scene.taken s.clock.rateClass kr }) := by rw [takeBank, h]

theorem takeBank_unsealed {s : State} (h : ∀ kr, s.scene.state ≠ .sealed kr) :
    takeBank s = (.nothing, { entered := 0, releasing := 0, cut := 0 }, s) := by
  unfold takeBank
  split
  next kr sealed => exact absurd sealed (h kr)
  next => rfl

/-- A take that cuts fills the headroom (R123). -/
theorem Scene.takeCounts_releasing {v : Scene} {house : Rate} {kr : Nat} (h : 0 < (v.takeCounts house kr).cut) :
    (v.takeCounts house kr).releasing = routeCapacity house - v.pendingBank.length :=
  Nat.min_eq_right (Nat.le_of_lt (Nat.lt_of_sub_pos h))

theorem groupStep_range {g : Nat} (h : 7 < g) (on : Bool) (s : State) : groupStep g on s = (.range, s) := if_pos h

theorem groupStep_taken {g : Nat} (h : g ≤ 7) (on : Bool) (s : State) :
    groupStep g on s = (.ok, { s with groups := setGroup s.groups g on }) := if_neg (Nat.not_lt.mpr h)

/-- A cue that mutes or unmutes a group (R141, R160). -/
theorem cueAct_group {c : Cue} (h : c.action = .groupMute ∨ c.action = .groupUnmute) (s : State) :
    cueAct c s = groupStep c.arg.toNat (c.action == .groupMute) s := by
  unfold cueAct
  obtain h | h := h <;> rw [h] <;> rfl

theorem cueAct_take {c : Cue} (h : c.action = .take) (s : State) :
    cueAct c s = ((takeBank s).1, (takeBank s).2.2) := by rw [cueAct, h]

/-- Settles O45: the cues that leave the list, that a pass with none due changes nothing, and what each firing does. -/
theorem cuePass_holds : Obligations.CuePass := by
  refine ⟨fun s due kept hd hk => ?_, fun s none => ?_, fun s t c res act => ?_,
    fun s c => ⟨fun h => ?_, fun h unsealed => ?_, fun kr v h sealed hv => ?_, fun h large => ?_, fun h small => ?_,
      fun h => ?_⟩⟩
  · have pass : cuePass s = due.foldl (fun t c => fireCue c t) { s with cues := kept } := by
      rw [hd, hk]
      rfl
    exact ⟨pass, by rw [pass, fireCues_cues]⟩
  · have quiet (c : Cue) (hc : c ∈ s.cues) : c.due s.sel.pos = false := by
      obtain ⟨early, ahead⟩ := none c hc
      simp [Cue.due, early, ahead]
    have undue : (s.cues.filter fun c => c.due s.sel.pos) = [] :=
      List.filter_eq_nil_iff.mpr fun c hc => by simp [quiet c hc]
    have stay : (s.cues.filter fun c => !c.due s.sel.pos) = s.cues :=
      List.filter_eq_self.mpr fun c hc => by simp [quiet c hc]
    rw [cuePass, undue, stay]
    rfl
  · rw [fireCue_of act, raiseIf_eq, Cue.detail_eq]
    refine if_congr ?_ rfl rfl
    simp [or_assoc]
  · rw [cueAct, h]
  · rw [cueAct_take h, takeBank_unsealed unsealed]
  · rw [cueAct_take h, takeBank_sealed sealed, raiseIf_eq, hv]
    by_cases cut : 0 < (s.scene.takeCounts s.clock.rateClass kr).cut
    · rw [if_pos (by simpa using cut), Scene.takeCounts_releasing cut]
      simp only [show (s.scene.taken s.clock.rateClass kr).cut = (s.scene.takeCounts s.clock.rateClass kr).cut from rfl,
        if_pos cut]
      rfl
    · rw [if_neg (by simpa using cut)]
      simp only [show (s.scene.taken s.clock.rateClass kr).cut = (s.scene.takeCounts s.clock.rateClass kr).cut from rfl,
        if_neg cut]
  · rw [cueAct_group h, groupStep_range large]
  · refine ⟨_, by rw [cueAct_group h, groupStep_taken small], fun i hi => ?_⟩
    exact setGroup_getLsbD s.groups small _ hi
  · rw [cueAct, h]

end Sys2Proof.Machine
end

section
/-!
O48: the status commands.
-/

namespace Sys2Proof.Machine

open Sys2Proof

/-! ## Cutting an answer into its fields -/

/-- A field of an answer lies between what comes before it and what comes after. -/
theorem take_drop_field {α : Type} {pre mid post l : List α} {n m : Nat} (h : l = pre ++ (mid ++ post))
    (hn : pre.length = n) (hm : mid.length = m) : (l.drop n).take m = mid := by
  rw [h, List.drop_left' hn, List.take_left' hm]

theorem getElem?_field {α : Type} {pre post : List α} {v : α} {n : Nat} (hn : pre.length = n) :
    (pre ++ v :: post)[n]? = some v := by
  subst hn
  rw [List.getElem?_append_right (Nat.le_refl _), Nat.sub_self]
  rfl

theorem bit_byte (b : Bool) : BitVec.ofNat 8 (bit b) = if b then 1 else 0 := by cases b <;> rfl

theorem bitsByte_two_eq (a b : Bool) : bitsByte [a, b] = (if a then 1 else 0) + if b then 2 else 0 := by
  cases a <;> cases b <;> rfl

theorem bitsByte_three_eq (a b c : Bool) :
    bitsByte [a, b, c] = (if a then 1 else 0) + (if b then 2 else 0) + if c then 4 else 0 := by
  cases a <;> cases b <;> cases c <;> rfl

theorem bitsByte_four_eq (a b c d : Bool) :
    bitsByte [a, b, c, d] = (if a then 1 else 0) + (if b then 2 else 0) + (if c then 4 else 0) + if d then 8 else 0 := by
  cases a <;> cases b <;> cases c <;> cases d <;> rfl

@[simp] theorem freeBytes_length (start k : Nat) : (freeBytes start k).length = k := by
  induction k generalizing start with
  | zero => rfl
  | succ k ih => exact congrArg (· + 1) (ih (start + 1))

@[simp] theorem cap16_length (n : Nat) : (cap16 n).length = 2 := be_length ..

@[simp] theorem beInt_length (k : Nat) (x : Int) : (beInt k x).length = k := be_length ..

theorem Setup.fits_bit (u : Setup) (pages : Nat) (b : Byte) :
    (if u.fits pages then b else 0) = if 2 ^ u.dExp * u.n ≤ pages * 1024 then b else 0 :=
  if_congr (Setup.fits_iff ..) rfl rfl

/-! ## PROGSTAT -/

/-- The selector's bytes 23 to 35 (R106). -/
def State.statSelector (s : State) : List Byte :=
  be 1 s.sel.state.code ++ [sideByte s.sel.cold] ++ be 1 (bit s.sel.abandoned) ++ be 2 s.sel.n0 ++ be 2 s.sel.j ++
    be 2 s.sel.n ++ be 1 s.sel.kx ++ [sideByte s.sel.state.leader, sideByte s.standby] ++ be 1 (bit s.sel.aligned)

/-- The program's bytes 36 to 50 (R106, R150). -/
def State.statProgram (s : State) : List Byte :=
  be 5 s.sel.pos ++ be 4 s.sel.phase ++ be 1 (bit s.sel.patch) ++ be 1 s.sel.preferred.code ++
    be 1 s.sel.policyKx ++ [bitsByte [s.sel.awaitsOnair, s.sel.awaitsStop]] ++ [s.groups, s.houseMuteByte]

/-- The cue list's bytes 51 and 52 (R163). -/
def State.statCues (s : State) : List Byte := be 1 s.cues.length ++ be 1 (s.cues.filter fun c => c.late).length

/-- The cue list's bytes 53 to 58 (R163; log 14). -/
def State.statHead (s : State) : List Byte :=
  match s.cues with
  | c :: _ => [c.tag] ++ be 5 c.trigger
  | [] => freeBytes s.freeCount 1 ++ List.replicate 5 0xFF

theorem State.cueStat_eq (s : State) : s.cueStat = s.statCues ++ s.statHead := by
  unfold State.cueStat State.statCues State.statHead
  cases s.cues <;> rfl

theorem State.progStat_eq (s : State) :
    s.progStat = s.clock.stat ++ s.memoryStat ++ s.statSelector ++ s.statProgram ++ s.statCues ++ s.statHead ++ s.bus.stat := by
  simp only [State.progStat, State.selectorStat, State.cueStat_eq, State.statSelector, State.statProgram,
    List.append_assoc]

theorem Clock.stat_length (c : Clock) : c.stat.length = 12 := by simp [Clock.stat]
theorem State.memoryStat_length (s : State) : s.memoryStat.length = 11 := by simp [State.memoryStat]
theorem State.statSelector_length (s : State) : s.statSelector.length = 13 := by simp [State.statSelector]
theorem State.statProgram_length (s : State) : s.statProgram.length = 15 := by simp [State.statProgram]
theorem State.statCues_length (s : State) : s.statCues.length = 2 := by simp [State.statCues]

theorem State.statHead_length (s : State) : s.statHead.length = 6 := by
  unfold State.statHead
  split <;> simp

theorem Clock.stat_eq (c : Clock) : c.stat =
    [match c.source with | .internal => (0 : Byte) | .external => 1,
      match c.state with | .internal => 0 | .following => 1 | .holdover => 2,
      match c.rateClass with | .k48 => 0 | .k96 => 1, BitVec.ofNat 8 c.n, BitVec.ofNat 8 c.good] ++
    be 6 c.counter.toNat ++ [match c.phase with | .starting => (0 : Byte) | .running => 1] := by
  simp only [Clock.stat, be_one]
  cases c.source <;> cases c.state <;> cases c.rateClass <;> cases c.phase <;> rfl

theorem State.memoryStat_eq (s : State) : s.memoryStat =
    be 2 s.pagesA ++ be 2 s.pagesB ++ be 2 s.pagesD ++ be 2 (delayCapacity s.pagesD) ++
      be 2 (delayCapacity s.pagesD - 1) ++
      [(if 2 ^ s.feedA.setup.dExp * s.feedA.setup.n ≤ s.pagesA * 1024 then 1 else 0) +
        if 2 ^ s.feedB.setup.dExp * s.feedB.setup.n ≤ s.pagesB * 1024 then 2 else 0] := by
  rw [State.memoryStat, bitsByte_two_eq, ← Setup.fits_bit, ← Setup.fits_bit]
  rfl

theorem State.statSelector_eq (s : State) {code : Option Side → Byte} (hcode : ∀ x, code x = sideByte x) :
    s.statSelector =
      [BitVec.ofNat 8 s.sel.state.code, code s.sel.cold, if s.sel.abandoned then 1 else 0] ++ be 2 s.sel.n0 ++
        be 2 s.sel.j ++ be 2 s.sel.n ++
        [BitVec.ofNat 8 s.sel.kx, code s.sel.state.leader,
          if s.feedA.isStandby then 0 else if s.feedB.isStandby then 1 else 0xFF, if s.sel.aligned then 1 else 0] := by
  have standby : sideByte s.standby = if s.feedA.isStandby then 0 else if s.feedB.isStandby then 1 else 0xFF := by
    unfold State.standby
    cases s.feedA.isStandby <;> cases s.feedB.isStandby <;> rfl
  simp only [State.statSelector, be_one, bit_byte, hcode, standby, List.append_assoc, List.cons_append, List.nil_append]

/-- The byte of the house mute and its sources (R150). -/
theorem State.houseMuteByte_eq (s : State) : s.houseMuteByte =
    (if s.gcMute then 1 else 0) + (if s.muteLast then 2 else 0) + (if s.muteAccepted then 4 else 0) +
      if s.gcMute || s.muteAccepted then 8 else 0 := bitsByte_four_eq ..

/-- The byte of what awaits in the selector (R106). -/
theorem Selector.awaits_byte (v : Selector) : bitsByte [v.awaitsOnair, v.awaitsStop] =
    (if v.awaiting.any fun e => match e.order with | .onair _ => true | .stop _ _ _ => false then 1 else 0) +
      (if v.awaiting.any fun e => match e.order with | .onair _ => false | .stop _ _ _ => true then 2 else 0) := by
  show bitsByte [v.awaitsOnair, v.awaitsStop] = ((if v.awaitsOnair then 1 else 0 : Nat) : Byte) + if v.awaitsStop then 2 else 0
  cases v.awaitsOnair <;> cases v.awaitsStop <;> rfl

theorem State.statProgram_eq (s : State) : s.statProgram =
    be 5 s.sel.pos ++ be 4 s.sel.phase ++
      [if s.sel.patch then 1 else 0, if s.sel.preferred = Side.a then 0 else 1, BitVec.ofNat 8 s.sel.policyKx,
        (if s.sel.awaiting.any fun e => match e.order with | .onair _ => true | .stop _ _ _ => false then 1 else 0) +
          (if s.sel.awaiting.any fun e => match e.order with | .onair _ => false | .stop _ _ _ => true then 2 else 0),
        s.groups,
        (if s.gcMute then 1 else 0) + (if s.muteLast then 2 else 0) + (if s.muteAccepted then 4 else 0) +
          if s.gcMute || s.muteAccepted then 8 else 0] := by
  have preferred : be 1 s.sel.preferred.code = [if s.sel.preferred = Side.a then 0 else 1] := by
    cases s.sel.preferred <;> rfl
  simp only [State.statProgram, be_one, bit_byte, preferred, Selector.awaits_byte, State.houseMuteByte_eq,
    List.append_assoc, List.cons_append, List.nil_append]

theorem Bus.stat_slot (b : Bus) (q : Role) : b.stat[1 + q.code]? = some (b.slots.get q).code := by cases q <;> rfl

theorem Bus.stat_lock (b : Bus) : b.stat[0]? = some (if b.lock then 1 else 0) := by
  rw [← bit_byte]
  rfl

theorem Bus.stat_length (b : Bus) : b.stat.length = 5 := by simp [Bus.stat]

section ProgStat

variable (s : State)

/-- Where the parts of a PROGSTAT record lie (spec/12). -/
theorem State.progStat_length : s.progStat.length = 64 := by
  simp only [State.progStat_eq, List.length_append, Clock.stat_length, State.memoryStat_length, State.statSelector_length,
    State.statProgram_length, State.statCues_length, State.statHead_length, Bus.stat_length]

theorem State.progStat_clock : s.progStat.take 12 = s.clock.stat := by
  simp only [State.progStat_eq, List.append_assoc]
  exact List.take_left' s.clock.stat_length

theorem State.progStat_memory : (s.progStat.drop 12).take 11 = s.memoryStat :=
  take_drop_field (pre := s.clock.stat)
    (by rw [State.progStat_eq]; simp only [List.append_assoc]; rfl)
    (by simp [Clock.stat_length]) s.memoryStat_length

theorem State.progStat_selector : (s.progStat.drop 23).take 13 = s.statSelector :=
  take_drop_field (pre := s.clock.stat ++ s.memoryStat)
    (by rw [State.progStat_eq]; simp only [List.append_assoc]; rfl)
    (by simp [Clock.stat_length, State.memoryStat_length]) s.statSelector_length

theorem State.progStat_program : (s.progStat.drop 36).take 15 = s.statProgram :=
  take_drop_field (pre := s.clock.stat ++ s.memoryStat ++ s.statSelector)
    (by rw [State.progStat_eq]; simp only [List.append_assoc]; rfl)
    (by simp [Clock.stat_length, State.memoryStat_length, State.statSelector_length]) s.statProgram_length

theorem State.progStat_cues : (s.progStat.drop 51).take 2 = s.statCues :=
  take_drop_field (pre := s.clock.stat ++ s.memoryStat ++ s.statSelector ++ s.statProgram)
    (by rw [State.progStat_eq]; simp only [List.append_assoc]; rfl)
    (by simp [Clock.stat_length, State.memoryStat_length, State.statSelector_length, State.statProgram_length]) s.statCues_length

theorem State.progStat_head : (s.progStat.drop 53).take 6 = s.statHead :=
  take_drop_field (pre := s.clock.stat ++ s.memoryStat ++ s.statSelector ++ s.statProgram ++ s.statCues)
    (by rw [State.progStat_eq]; simp only [List.append_assoc]; rfl)
    (by simp [Clock.stat_length, State.memoryStat_length, State.statSelector_length, State.statProgram_length,
      State.statCues_length]) s.statHead_length

/-- The interface's part of a PROGSTAT record (R178). -/
theorem State.progStat_bus (k : Nat) : s.progStat[59 + k]? = s.bus.stat[k]? := by
  rw [State.progStat_eq, List.getElem?_append_right]
  all_goals simp [Clock.stat_length, State.memoryStat_length, State.statSelector_length, State.statProgram_length,
    State.statCues_length, State.statHead_length]

end ProgStat

/-- PROGSTAT of a role that the part hears, in both phases (R170, R178). -/
theorem exec_progstat {s : State} {addr : BitVec 7} {r : Role} (hs : s.Hears addr r) :
    exec (.progstat addr []) s = .next
      ({ caughtUp s with freeCount := (caughtUp s).freeCount + 1 }.answered r 0x03 .ok
        ((caughtUp s).executes r 0x03).progStat) :=
  congrArg Host.Outcome.next ((takeFrame_handed _ hs (judge_bothPhases (by decide) r (by simp) _)).trans
    (complete_executes { caughtUp s with freeCount := (caughtUp s).freeCount + 1 } r 0x03 .ok _))

/-- What a status record shows of each role's slot: the command in execution, the sender's own among them (R178). -/
theorem State.executes_slot (s : State) (r q : Role) (code : Byte) :
    ((s.executes r code).bus.slots.get q).code =
      if q = r then code else match s.bus.slots.get q with | .executing d => d | .free | .receiving => 0 := by
  show ((s.bus.slots.set r (.executing code)).get q).code = _
  rw [PerRole.get_set]
  split
  · rfl
  · cases s.bus.slots.get q <;> rfl

/-! ## FEEDSTAT -/

/-- A field of a record that is the fields one after another. -/
theorem take_drop_flatten {α : Type} {fields : List (List α)} (k : Nat) {field : List α} (h : fields[k]? = some field)
    {n m : Nat} (hn : (fields.take k).flatten.length = n) (hm : field.length = m) :
    (fields.flatten.drop n).take m = field := by
  obtain ⟨lt, rfl⟩ := List.getElem?_eq_some_iff.mp h
  refine take_drop_field (pre := (fields.take k).flatten) (post := (fields.drop (k + 1)).flatten) ?_ hn hm
  rw [← List.flatten_cons, ← List.flatten_append, List.getElem_cons_drop, List.take_append_drop]

theorem getElem?_flatten {α : Type} {fields : List (List α)} (k : Nat) {v : α} (h : fields[k]? = some [v])
    {n : Nat} (hn : (fields.take k).flatten.length = n) : fields.flatten[n]? = some v := by
  have cut := take_drop_flatten k h hn (m := 1) rfl
  have first := congrArg (fun l : List α => l[0]?) cut
  simpa [List.getElem?_take, List.getElem?_drop] using first

/-- The completion as FEEDSTAT shows it (R63; log 14). -/
def Feed.statCompletion (f : Feed) (free : Nat) : List Byte :=
  match f.completion with
  | some c => be 1 (reasonCode (some c.reason)) ++ be 5 c.final
  | none => be 1 0 ++ freeBytes free 5

/-- The pending PLAY as FEEDSTAT shows it (R63; log 14). -/
def Feed.statPlay (f : Feed) (free : Nat) : List Byte :=
  match f.pendingPlay with
  | some v => be 5 v.pos ++ be 4 v.count
  | none => freeBytes free 9

/-- The head as FEEDSTAT shows it (R32). -/
def Feed.statHead (f : Feed) : List Byte := if f.h = Config.posEnd then List.replicate 5 0xFF else be 5 f.h

/-- The source end as FEEDSTAT shows it (R32; log 14). -/
def Feed.statSourceEnd (f : Feed) (free : Nat) : List Byte :=
  match f.sourceEnd with
  | some e => be 5 e
  | none => freeBytes free 5

@[simp] theorem Feed.statCompletion_length (f : Feed) (free : Nat) : (f.statCompletion free).length = 6 := by
  unfold Feed.statCompletion
  split <;> simp

@[simp] theorem Feed.statPlay_length (f : Feed) (free : Nat) : (f.statPlay free).length = 9 := by
  unfold Feed.statPlay
  split <;> simp

@[simp] theorem Feed.statHead_length (f : Feed) : f.statHead.length = 5 := by
  unfold Feed.statHead
  split <;> simp

@[simp] theorem Feed.statSourceEnd_length (f : Feed) (free : Nat) : (f.statSourceEnd free).length = 5 := by
  unfold Feed.statSourceEnd
  split <;> simp

/-- A FEEDSTAT record's fields (spec/12): S and N, the completion, the flags, the pending PLAY, the setup, head, fill and
last stamps, the source end, the pace and the watch byte, the resampler. -/
def Feed.statFields (f : Feed) (x : Side) (placed : Bool) (free : Nat) : List (List Byte) :=
  [be 1 x.code ++ be 1 f.st.code ++ be 1 f.role.code ++ be 1 (reasonCode f.ending) ++ be 5 f.startPos ++ be 4 f.count,
    f.statCompletion free,
    [bitsByte [f.pendingPlay.isSome, placed, f.intakeEnded, f.sourceEnd.isSome]],
    f.statPlay (free + 5),
    f.setup.bytes,
    f.statHead,
    cap16 f.fill,
    stampBytes f.last0 ++ stampBytes f.last1,
    f.statSourceEnd (free + 14),
    [bitsByte [f.pace.line, f.pace.isOpen, f.pace.try2]],
    be 1 (bit f.watch.armed + 2 * bit f.watch.absent + 4 * f.watch.bad + 16 * f.watch.good +
      64 * bit f.watch.marks.l0 + 128 * bit f.watch.marks.l1),
    be 4 f.rs.rNom ++ be 4 f.rs.r ++ beInt 3 f.rs.acc ++ be 5 f.rs.i ++ be 4 f.rs.phi ++ beInt 2 f.rs.servoErr,
    [bitsByte [f.rs.clamped, f.rs.underrun]]]

theorem stampBytes_eq (t : Option Nat) : stampBytes t = be 5 (t.getD (2 ^ 40 - 1)) := by
  cases t with
  | none => rfl
  | some t => rfl

section FeedStat

variable (f : Feed) (x : Side) (placed : Bool) (free : Nat)

theorem Feed.stat_eq : f.stat x placed free = (f.statFields x placed free).flatten := by
  simp only [Feed.stat, Feed.statPlayback, Feed.statPending, Feed.statIntake, Resampler.stat, Feed.statFields,
    List.flatten_cons, List.flatten_nil, List.append_assoc, List.append_nil]
  rfl

/-- The lengths of a FEEDSTAT record's fields (spec/12). -/
theorem Feed.statFields_lengths :
    (f.statFields x placed free).map List.length = [13, 6, 1, 9, 7, 5, 2, 10, 5, 1, 1, 22, 1] := by
  unfold Feed.statFields
  simp [stampBytes_eq, Setup.bytes]

theorem Feed.stat_length : (f.stat x placed free).length = 83 := by
  rw [Feed.stat_eq, List.length_flatten, Feed.statFields_lengths]
  rfl

/-- The k-th field of a FEEDSTAT record lies after those before it. -/
theorem Feed.stat_field {field : List Byte} (k : Nat) (h : (f.statFields x placed free)[k]? = some field) {n m : Nat}
    (hn : (([13, 6, 1, 9, 7, 5, 2, 10, 5, 1, 1, 22, 1] : List Nat).take k).sum = n)
    (hm : ([13, 6, 1, 9, 7, 5, 2, 10, 5, 1, 1, 22, 1] : List Nat)[k]? = some m) :
    ((f.stat x placed free).drop n).take m = field := by
  rw [← f.statFields_lengths x placed free] at hn hm
  rw [Feed.stat_eq]
  refine take_drop_flatten k h ?_ ?_
  · rw [List.length_flatten, ← hn, List.map_take]
  · rw [List.getElem?_map, h] at hm
    exact Option.some.inj hm

theorem Feed.stat_byte {v : Byte} (k : Nat) (h : (f.statFields x placed free)[k]? = some [v]) {n : Nat}
    (hn : (([13, 6, 1, 9, 7, 5, 2, 10, 5, 1, 1, 22, 1] : List Nat).take k).sum = n) :
    (f.stat x placed free)[n]? = some v := by
  rw [← f.statFields_lengths x placed free] at hn
  rw [Feed.stat_eq]
  refine getElem?_flatten k h ?_
  rw [List.length_flatten, ← hn, List.map_take]

end FeedStat

/-! ## The reports in RUNNING -/

/-- A report, which every role may ask for, reaches its owner (R170). -/
theorem exec_report_served {i : Instr} {code : Byte} {addr : BitVec 7} {p : List Byte} {r : Role} {s : State}
    (hi : i.frame = some (code, addr, p)) (hs : s.Serves addr r) (hc : code = 0x26 ∨ code = 0x32 ∨ code = 0x43)
    (hp : p.length ≤ 250) (hl : goodLength code.toNat p.length = true) :
    exec i s = .next (Instr.owner i r ((caughtUp s).executes r code)) := by
  refine exec_served hi hs hp (judge_none hp ?_ ?_ ?_) hl
  · obtain rfl | rfl | rfl := hc <;> rfl
  · obtain rfl | rfl | rfl := hc <;> cases r <;> rfl
  · obtain rfl | rfl | rfl := hc <;> rfl

/-- FEEDSTAT shows either feed to every role (R63, R170). -/
theorem exec_feedstat {s : State} {addr : BitVec 7} {r : Role} (hs : s.Serves addr r) (x : Side) :
    exec (.feedstat addr [BitVec.ofNat 8 x.code]) s = .next
      ({ caughtUp s with freeCount := (caughtUp s).freeCount + 19 }.answered r 0x14 .ok
        (((caughtUp s).feed x).stat x ((caughtUp s).placed x) (caughtUp s).freeCount)) := by
  have asked : judge 0x14 r [BitVec.ofNat 8 x.code] false = none := by cases r <;> cases x <;> rfl
  rw [exec_served (i := .feedstat addr _) rfl hs (by simp) asked rfl]
  refine congrArg Host.Outcome.next (Eq.trans ?_
    (complete_executes { caughtUp s with freeCount := (caughtUp s).freeCount + 19 } r 0x14 .ok _))
  cases x <;> rfl

/-- The watch byte of FEEDSTAT (spec/12). -/
theorem watch_byte (armed absent l0 l1 : Bool) (bad good : Nat) :
    be 1 (bit armed + 2 * bit absent + 4 * bad + 16 * good + 64 * bit l0 + 128 * bit l1) =
      [(if armed then 1 else 0) + (if absent then 2 else 0) + BitVec.ofNat 8 (4 * bad + 16 * good) +
        (if l0 then 64 else 0) + if l1 then 128 else 0] := by
  rw [be_one, add_assoc (bit armed + 2 * bit absent)]
  simp only [BitVec.ofNat_add]
  cases armed <;> cases absent <;> cases l0 <;> cases l1 <;> rfl

theorem cap16_min (n : Nat) : cap16 n = be 2 (min n 65535) := rfl

theorem State.sceneStatus_eq (s : State) : s.sceneStatus =
    [BitVec.ofNat 8 s.scene.state.code, if s.scene.copy = .none then 0 else 1] ++
      cap16 s.scene.pendingBank.length ++
      [match s.scene.state with | .sealed kr => BitVec.ofNat 8 kr | .free | .building => 0xFF,
        if s.scene.take = .none then 0 else 1] ++
      cap16 s.scene.active.length ++ cap16 (s.scene.active.filter fun e : ActiveRoute => e.releasing).length ++
      cap16 (s.scene.active.filter fun e : ActiveRoute => 0 < e.remaining).length ++
      (match s.clock.rateClass with | .k48 => be 2 2048 ++ be 2 1536 | .k96 => be 2 1024 ++ be 2 768) ++
      cap16 s.scene.cut := by
  have copy : be 1 (bit (s.scene.copy != .none)) = [if s.scene.copy = .none then 0 else 1] := by
    cases s.scene.copy <;> rfl
  have take : be 1 (bit (s.scene.take != .none)) = [if s.scene.take = .none then 0 else 1] := by
    cases s.scene.take <;> rfl
  rw [State.sceneStatus, copy, take, be_one s.scene.state.code]
  cases s.scene.state <;> cases s.clock.rateClass <;>
    simp only [be_one, List.append_assoc, List.cons_append, List.nil_append] <;> rfl

/-- The active route's part of a key's report (R130). -/
def heldBytes : Option ActiveRoute → List Byte
  | some e =>
    be 1 1 ++ beInt 3 e.target ++ be 1 e.k ++ beInt 3 e.gain ++ beInt 4 e.step ++ be 2 e.remaining ++ be 1 (bit e.releasing)
  | none => List.replicate 15 0

/-- The pending entry's part of a key's report (R130). -/
def pendingEntryBytes : Option RouteEntry → List Byte
  | some e => be 1 1 ++ beInt 3 e.target ++ be 1 e.k
  | none => List.replicate 5 0

theorem Scene.keyStatus_eq (v : Scene) (key : Nat) :
    v.keyStatus key = heldBytes (v.active.find? fun e => e.key == key) ++
      pendingEntryBytes (v.pendingBank.find? fun e => e.key == key) := rfl

/-- A cue as CUESTAT shows it (R159). -/
theorem Cue.bytes_eq (q : Cue) : q.bytes =
    [q.tag, BitVec.ofNat 8 q.poster.code] ++ be 5 q.trigger ++
      [BitVec.ofNat 8 q.action.code, q.arg, if q.late then 1 else 0] := by
  simp only [Cue.bytes, be_one, bit_byte, List.append_assoc, List.cons_append, List.nil_append]

theorem Cue.bytes_length (q : Cue) : q.bytes.length = 10 := by simp [Cue.bytes]

theorem outstat_range {k clear : Byte} (bad : 63 < k.toNat ∨ 1 < clear.toNat) (r : Role) (u : State) :
    outstat [k, clear] r u = complete r .range [] u := by
  unfold outstat
  split
  · rfl
  next on known =>
    refine if_pos (bad.resolve_right fun large => ?_)
    rw [show u8 [k, clear] 1 = clear.toNat from rfl, boolOf_of_gt large] at known
    contradiction

/-- The record of an output (R150). -/
def OutRec.stat (o : OutRec) (k : Byte) (s : State) : List Byte :=
  [k] ++ be 3 o.trim ++ be 2 o.delay ++ pendingBytes o.pendingDelay ++
    [if o.ownMute then 1 else 0, o.mask] ++ be 3 o.m ++
    [if o.ownMute = true ∨ o.mask &&& s.groups ≠ 0 ∨ s.gcMute = true ∨ s.muteAccepted = true ∨
        o.pendingDelay ≠ none then 0 else 1,
      (if o.ownMute then 1 else 0) + (if o.mask &&& s.groups ≠ 0 then 2 else 0) +
        (if s.gcMute || s.muteAccepted then 4 else 0) + (if o.pendingDelay.isSome then 8 else 0),
      if o.clip then 1 else 0] ++ be 2 o.writeIdx ++ be 2 o.valid ++
    [s.groups, (if s.gcMute then 1 else 0) + (if s.muteLast then 2 else 0) + (if s.muteAccepted then 4 else 0) +
      if s.gcMute || s.muteAccepted then 8 else 0]

/-- What mutes an output (R138). -/
theorem OutRec.muted_iff (o : OutRec) (s : State) : o.muted s.groups s.houseMute = true ↔
    (o.ownMute = true ∨ o.mask &&& s.groups ≠ 0 ∨ s.gcMute = true ∨ s.muteAccepted = true ∨ o.pendingDelay ≠ none) := by
  simp [OutRec.muted, OutRec.groupMuted, State.houseMute, or_assoc, Option.isSome_iff_ne_none]

theorem State.outStatus_eq {s : State} {k : Byte} {o : OutRec} (h : s.outs[k.toNat]? = some o) :
    s.outStatus k.toNat = o.stat k s := by
  have record : s.outs.getD k.toNat outReset = o := by rw [List.getD_eq_getElem?_getD, h]; rfl
  have audible : BitVec.ofNat 8 (bit (!o.muted s.groups s.houseMute)) =
      if o.ownMute = true ∨ o.mask &&& s.groups ≠ 0 ∨
        s.gcMute = true ∨ s.muteAccepted = true ∨ o.pendingDelay ≠ none then 0 else 1 := by
    rw [bit_byte, ← if_congr (OutRec.muted_iff o s) rfl rfl]
    cases o.muted s.groups s.houseMute <;> rfl
  have causes : bitsByte [o.ownMute, o.groupMuted s.groups, s.houseMute, o.pendingDelay.isSome] =
      (if o.ownMute then 1 else 0) + (if o.mask &&& s.groups ≠ 0 then 2 else 0) +
        (if s.gcMute || s.muteAccepted then 4 else 0) + (if o.pendingDelay.isSome then 8 else 0) := by
    rw [bitsByte_four_eq, if_congr (show o.groupMuted s.groups = true ↔ o.mask &&& s.groups ≠ 0 from bne_iff_ne) rfl rfl]
    rfl
  unfold State.outStatus OutRec.stat
  rw [record]
  simp only [be_one, audible, causes, State.houseMuteByte_eq, bit_byte, BitVec.ofNat_toNat, BitVec.setWidth_eq,
    List.append_assoc, List.cons_append, List.nil_append]

theorem OutRec.stat_length (o : OutRec) (k : Byte) (s : State) : (o.stat k s).length = 22 := by
  have pending : (pendingBytes o.pendingDelay).length = 2 := by cases o.pendingDelay <;> simp [pendingBytes]
  simp [OutRec.stat, pending]

/-- OUTSTAT shows the record and clears the clip mark where it is told to (R150). -/
theorem outstat_shown {k clear : Byte} {u : State} {o : OutRec} (hk : k.toNat ≤ 63) (hclear : clear.toNat ≤ 1)
    (held : u.outs[k.toNat]? = some o) (r : Role) :
    outstat [k, clear] r u =
      complete r .ok (o.stat k u) { u with outs := u.outs.set k.toNat { o with clip := o.clip && clear == 0 } } := by
  have cleared : (!(clear == 1)) = (clear == 0) := by
    obtain h | h := Nat.le_one_iff_eq_zero_or_eq_one.mp hclear
    · rw [show clear = 0 from BitVec.eq_of_toNat_eq h]; rfl
    · rw [show clear = 1 from BitVec.eq_of_toNat_eq h]; rfl
  unfold outstat
  rw [show u8 [k, clear] 1 = clear.toNat from rfl, show u8 [k, clear] 0 = k.toNat from rfl, boolOf_byte hclear]
  dsimp only
  rw [if_neg (by omega), State.outStatus_eq held, State.onOut_of held, cleared]

/-- Settles O48: the records of the status commands, field by field. -/
theorem statusCommands : Obligations.StatusCommands := by
  refine ⟨fun s c addr r code hs hc hcode => ?_, fun s c addr r hs hc => ⟨fun x f hf => ?_, fun plain hplain => ?_, ?_,
    fun k clear => ?_⟩⟩
  · obtain ⟨u, hu⟩ : ∃ u, u = c.executes r 0x03 := ⟨_, rfl⟩
    have clock : u.clock = s.clock := by rw [hu, hc]; exact caughtUp_clock s
    have cues : u.cues = s.cues := by rw [hu, hc]; exact caughtUp_cues s
    have bus : c.bus = s.bus := by rw [hc, caughtUp_bus]
    refine ⟨u.progStat, c.freeCount + 1, by rw [exec_progstat hs, hu, hc], u.progStat_length, ?_, ?_, ?_, ?_, ?_,
      fun q rest some => ?_, fun none => ?_, ?_, fun q => ?_⟩
    · rw [State.progStat_clock, ← clock]
      exact Clock.stat_eq u.clock
    · rw [State.progStat_memory, ← caughtUp_pagesA s, ← caughtUp_pagesB s, ← caughtUp_pagesD s, ← hc, hu]
      exact State.memoryStat_eq _
    · rw [State.progStat_selector, State.statSelector_eq u fun x => (hcode x).trans (sideByte_eq x).symm, hu]
      rfl
    · rw [State.progStat_program, ← caughtUp_groups s, ← caughtUp_gcMute s, ← caughtUp_muteLast s,
        ← caughtUp_muteAccepted s, ← hc, hu]
      exact State.statProgram_eq (c.executes r 0x03)
    · rw [State.progStat_cues, State.statCues, cues, be_one, be_one]
      rfl
    · rw [State.progStat_head, State.statHead, cues, some]
    · have head : u.statHead = freeBytes u.freeCount 1 ++ List.replicate 5 0xFF := by rw [State.statHead, cues, none]
      have tail := congrArg (List.drop 1) u.progStat_head
      rwa [head, List.drop_take, List.drop_drop] at tail
    · rw [show (59 : Nat) = 59 + 0 from rfl, State.progStat_bus, Bus.stat_lock, ← bus, hu]
      rfl
    · have shown := State.executes_slot c r q 0x03
      rw [bus] at shown
      rw [show 60 + q.code = 59 + (1 + q.code) by omega, State.progStat_bus, Bus.stat_slot, hu]
      exact congrArg some shown
  · subst hf
    refine ⟨_, _, by rw [exec_feedstat hs, ← hc], Feed.stat_length .., ?_, fun v ended => ?_, fun none => ?_, ?_,
      fun v waits => ?_, ?_, ?_, ?_, ?_, fun e ends => ?_, ?_, fun _ _ => ?_, ?_, ?_⟩
    · exact (Feed.stat_field (n := 0) (m := 13) _ _ _ _ 0 rfl rfl rfl).trans (by simp only [be_one]; rfl)
    · exact (Feed.stat_field (n := 13) (m := 6) _ _ _ _ 1 rfl rfl rfl).trans (by
        rw [Feed.statCompletion, ended]
        simp only [be_one])
    · have field := Feed.stat_field (n := 13) (m := 6) (c.feed x) x (c.placed x) c.freeCount 1 rfl rfl rfl
      rw [Feed.statCompletion, none, show be 1 0 = [0] from rfl] at field
      have first := congrArg (fun l : List Byte => l[0]?) field
      simpa [List.getElem?_take, List.getElem?_drop] using first
    · refine Feed.stat_byte _ _ _ _ 2 ?_ rfl
      refine congrArg (fun b => some [b]) ((bitsByte_four_eq ..).trans ?_)
      rw [State.placed, Setup.fits_bit]
    · exact (Feed.stat_field (n := 20) (m := 9) _ _ _ _ 3 rfl rfl rfl).trans (by rw [Feed.statPlay, waits])
    · exact Feed.stat_field (n := 29) (m := 7) _ _ _ _ 4 rfl rfl rfl
    · exact (Feed.stat_field (n := 36) (m := 5) _ _ _ _ 5 rfl rfl rfl).trans (by
        rw [Feed.statHead, show List.replicate 5 0xFF = be 5 (2 ^ 40 - 1) by decide]
        rfl)
    · exact Feed.stat_field (n := 41) (m := 2) _ _ _ _ 6 rfl rfl rfl
    · exact (Feed.stat_field (n := 43) (m := 10) _ _ _ _ 7 rfl rfl rfl).trans (by rw [stampBytes_eq, stampBytes_eq])
    · exact (Feed.stat_field (n := 53) (m := 5) _ _ _ _ 8 rfl rfl rfl).trans (by rw [Feed.statSourceEnd, ends])
    · exact Feed.stat_byte _ _ _ _ 9 (congrArg (fun b => some [b]) (bitsByte_three_eq ..)) rfl
    · exact Feed.stat_byte _ _ _ _ 10 (congrArg some (watch_byte ..)) rfl
    · exact Feed.stat_field (n := 60) (m := 22) _ _ _ _ 11 rfl rfl rfl
    · exact Feed.stat_byte _ _ _ _ 12 (congrArg (fun b => some [b]) (bitsByte_two_eq ..)) rfl
  · have plainOf : c.sceneStatus = plain := by
      rw [hplain, ← caughtUp_scene s, ← caughtUp_clock s, ← hc]
      exact State.sceneStatus_eq c
    have scnstatOf (i o : Byte) : exec (.scnstat addr [i, o]) s = .next
        (if 95 < i.toNat ∨ 63 < o.toNat then c.answered r 0x26 .range []
          else c.answered r 0x26 .ok (plain ++ s.scene.keyStatus (o.toNat * 256 + i.toNat))) := by
      rw [exec_report_served (i := .scnstat addr [i, o]) (code := 0x26) rfl hs (.inl rfl) (by simp) rfl, ← hc, ← plainOf,
        ← caughtUp_scene s, ← hc, ← complete_executes, ← complete_executes]
      rfl
    refine ⟨?_, fun i o => ⟨fun bad => by rw [scnstatOf, if_pos bad], fun hi ho => ⟨
      heldBytes (s.scene.active.find? fun e => e.key == o.toNat * 256 + i.toNat),
      pendingEntryBytes (s.scene.pendingBank.find? fun e => e.key == o.toNat * 256 + i.toNat),
      by rw [scnstatOf, if_neg (by omega), Scene.keyStatus_eq, List.append_assoc], fun e found => ?_, fun none => ?_,
      fun e found => ?_, fun none => ?_⟩⟩⟩
    · rw [exec_report_served (i := .scnstat addr []) (code := 0x26) rfl hs (.inl rfl) (by simp) rfl, ← hc, ← plainOf]
      exact congrArg Host.Outcome.next (complete_executes ..)
    · simp only [found, heldBytes, be_one, bit_byte]
      rfl
    · simp only [none, heldBytes]
    · simp only [found, pendingEntryBytes, be_one]
      rfl
    · simp only [none, pendingEntryBytes]
  · rw [exec_report_served (i := .cuestat addr []) (code := 0x32) rfl hs (.inr (.inl rfl)) (by simp) rfl, ← hc]
    have cues : c.cues = s.cues := by rw [hc, caughtUp_cues]
    refine ⟨_, congrArg Host.Outcome.next (complete_executes c r 0x32 .ok _), ?_, ?_⟩
    · show (be 1 c.cues.length ++ be 1 _ ++ be 1 _ ++ (c.cues.take 4).flatMap Cue.bytes).length = _
      rw [cues]
      simp only [List.length_append, be_length, List.length_flatMap, Cue.bytes_length, List.map_const', List.sum_replicate,
        List.length_take, smul_eq_mul]
      omega
    · show be 1 c.cues.length ++ be 1 (c.cues.filter fun q => q.poster == .render).length ++
        be 1 (c.cues.filter fun q => q.poster == .system).length ++ (c.cues.take 4).flatMap Cue.bytes = _
      rw [cues, be_one, be_one, be_one, show Cue.bytes = _ from funext Cue.bytes_eq]
      rfl
  · have reach : exec (.outstat addr [k, clear]) s = .next (outstat [k, clear] r (c.executes r 0x43)) := by
      rw [exec_report_served (i := .outstat addr [k, clear]) (code := 0x43) rfl hs (.inr (.inr rfl)) (by simp) rfl, ← hc]
      rfl
    have outs : c.outs = s.outs := by rw [hc, caughtUp_outs]
    refine ⟨fun bad => by rw [reach, outstat_range bad, complete_executes], fun o hk hclear held =>
      ⟨o.stat k c, ?_, o.stat_length k c, ?_⟩⟩
    · rw [reach, outstat_shown (u := c.executes r 0x43) hk hclear (outs ▸ held), ← outs]
      exact congrArg Host.Outcome.next (complete_executes { c with
        outs := c.outs.set k.toNat { o with clip := o.clip && clear == 0 } } r 0x43 .ok (o.stat k c))
    · rw [← caughtUp_groups s, ← caughtUp_gcMute s, ← caughtUp_muteLast s, ← caughtUp_muteAccepted s, ← hc, OutRec.stat]
      cases o.pendingDelay <;> rfl

end Sys2Proof.Machine
end

section
/-!
O40, O43: the delay lines and the output stage.
-/

namespace Sys2Proof.Machine

open Sys2Proof

/-! ## O43 -/

/-- A sample of 24 bits keeps its value in a word. -/
theorem sample_toInt {y : Int} (low : -8388608 ≤ y) (high : y ≤ 8388607) : (BitVec.ofInt 24 y).toInt = y := by
  rw [BitVec.toInt_ofInt]
  exact Int.bmod_eq_of_le (by omega) (by omega)

/-- The word that lies a delay behind the write index is the written one exactly at delay 0. -/
theorem behind_eq_iff {w cap delay : Nat} (hw : w < cap) (hd : delay < cap) : (w + cap - delay) % cap = w ↔ delay = 0 := by
  obtain h | h := Nat.lt_or_ge w delay
  · rw [Nat.mod_eq_of_lt (by omega)]
    omega
  · rw [show w + cap - delay = w - delay + cap by omega, Nat.add_mod_right, Nat.mod_eq_of_lt (by omega)]
    omega

section LineStep

variable {r : LineStep} {passing : List Access} {cap base out delay w valid : Nat} {y : Int} {mem : Memory}
  {word : MemWord} (wf : Memory.wf mem = true) (hw : w < cap) (hd : delay < cap) (hv : valid ≤ cap)
  (hr : r = lineStep passing cap base out delay w valid y mem)
  (hword : word = if delay = 0 then { sample := BitVec.ofInt 24 y, good := true }
    else mem.read (base + (w + cap - delay) % cap))
include hw hr

theorem lineStep_mem : r.mem = mem.write (base + w) (BitVec.ofInt 24 y) := by
  rw [hr, lineStep, if_neg (by omega)]

theorem lineStep_writeIdx : r.writeIdx = (w + 1) % cap := by
  rw [hr, lineStep, if_neg (by omega)]

include hv in
theorem lineStep_valid : r.valid = min (valid + 1) cap := by
  rw [hr, lineStep, if_neg (by omega)]
  show (if valid < cap then valid + 1 else valid) = _
  split <;> omega

include wf hd hword hv in
/-- What a line's read gives, and the word offset of a read that fails (R40, R41). -/
theorem lineStep_read (fails : Bool) (hf : fails = readFails passing .delay out 0 word) :
    (r.out, r.failed) =
      if delay < min (valid + 1) cap then
        if fails then (0, some ((w + cap - delay) % cap)) else (word.sample.toInt, none)
      else (0, none) := by
  have found : (mem.write (base + w) (BitVec.ofInt 24 y)).read (base + (w + cap - delay) % cap) = word := by
    rw [Memory.read_write _ _ _ wf, hword]
    exact if_congr (by rw [Nat.add_left_cancel_iff, behind_eq_iff hw hd]) rfl rfl
  have count : (if valid < cap then valid + 1 else valid) = min (valid + 1) cap := by split <;> omega
  rw [hr, lineStep, if_neg (by omega)]
  dsimp only
  rw [found, count, ← hf]
  by_cases within : delay < min (valid + 1) cap <;> cases fails <;> simp [within]

end LineStep

theorem readFails_iff (passing : List Access) (reader : Reader) (index tap : Nat) (w : MemWord) :
    readFails passing reader index tap w = true ↔
      w.good = false ∨ { reader := reader, index := index, tap := tap, reread := false } ∈ passing ∧
        { reader := reader, index := index, tap := tap, reread := true } ∈ passing := by
  simp [readFails]

/-- What a delay line holds before its house sample number j: the write index, the valid count, the samples of the house
samples before as far as the line reaches back, and every word outside it as it was (R40). -/
structure LineReady (cap base start : Nat) (ys : Nat → Int) (first : Memory) (j w valid : Nat) (mem : Memory) : Prop where
  wf : Memory.wf mem = true
  writeIdx : w = (start + j) % cap
  valid : valid = min j cap
  samples : ∀ d, 0 < d → d ≤ j → d < cap →
    mem.read (base + (start + j + cap - d) % cap) = { sample := BitVec.ofInt 24 (ys (j - d)), good := true }
  outside : ∀ a, a < base ∨ base + cap ≤ a → mem.read a = first.read a

section LineReady

variable {cap base start : Nat} {ys : Nat → Int} {first : Memory}

theorem lineReady_start (wf : Memory.wf first = true) (h : start < cap) :
    LineReady cap base start ys first 0 start 0 first where
  wf := wf
  writeIdx := (Nat.mod_eq_of_lt h).symm
  valid := (Nat.zero_min cap).symm
  samples d pos le := absurd pos (by omega)
  outside _ _ := rfl

variable {j w valid : Nat} {mem : Memory} (h : LineReady cap base start ys first j w valid mem) (pos : 0 < cap)
include h pos

theorem LineReady.index_lt : w < cap := by
  rw [h.writeIdx]
  exact Nat.mod_lt _ pos

omit pos in
theorem LineReady.behind {d : Nat} (hd : d < cap) : (w + cap - d) % cap = (start + j + cap - d) % cap := by
  have apart : start + j = cap * ((start + j) / cap) + w := by rw [h.writeIdx, Nat.div_add_mod]
  rw [show start + j + cap - d = w + cap - d + cap * ((start + j) / cap) by omega, Nat.add_mul_mod_self_left]

variable {r : LineStep} {passing : List Access} {out delay : Nat} (hd : delay < cap)
  (hr : r = lineStep passing cap base out delay w valid (ys j) mem)
include hr

/-- A house sample of a delay line (R40). -/
theorem LineReady.step : LineReady cap base start ys first (j + 1) r.writeIdx r.valid r.mem where
  wf := by
    rw [lineStep_mem (h.index_lt pos) hr]
    exact Memory.write_wf _ _ h.wf
  writeIdx := by rw [lineStep_writeIdx (h.index_lt pos) hr, h.writeIdx, Nat.mod_add_mod, Nat.add_assoc]
  valid := by
    rw [lineStep_valid (h.index_lt pos) (by have := h.valid; omega) hr, h.valid]
    omega
  samples d above le lt := by
    have place : (start + (j + 1) + cap - d) % cap = (w + cap - (d - 1)) % cap := by
      rw [h.behind (by omega)]
      congr 1
      omega
    have here : base + (w + cap - (d - 1)) % cap = base + w ↔ d - 1 = 0 := by
      rw [Nat.add_left_cancel_iff, behind_eq_iff (h.index_lt pos) (by omega)]
    rw [lineStep_mem (h.index_lt pos) hr, Memory.read_write _ _ _ h.wf, place]
    by_cases last : d - 1 = 0
    · rw [if_pos (here.mpr last), show j + 1 - d = j by omega]
    · rw [if_neg (mt here.mp last), h.behind (by omega), h.samples (d - 1) (by omega) (by omega) (by omega),
        show j - (d - 1) = j + 1 - d by omega]
  outside a far := by
    have inside := h.index_lt pos
    rw [lineStep_mem inside hr, Memory.read_write _ _ _ h.wf, if_neg (by omega)]
    exact h.outside a far

include hd in
/-- What a delay line gives at house sample number j: the sample of `delay` house samples before, if there is one (R40,
R41). -/
theorem LineReady.gives (bound : ∀ i, -8388608 ≤ ys i ∧ ys i ≤ 8388607) (fails : Bool)
    (hf : fails = (passing.contains { reader := .delay, index := out, tap := 0, reread := false } &&
      passing.contains { reader := .delay, index := out, tap := 0, reread := true })) :
    (r.out, r.failed) =
      if delay ≤ j then if fails then (0, some ((start + j + cap - delay) % cap)) else (ys (j - delay), none)
      else (0, none) := by
  obtain ⟨word, hword⟩ : ∃ word : MemWord, word = if delay = 0 then { sample := BitVec.ofInt 24 (ys j), good := true }
    else mem.read (base + (w + cap - delay) % cap) := ⟨_, rfl⟩
  have few : valid ≤ cap := by have := h.valid; omega
  have within : delay < min (valid + 1) cap ↔ delay ≤ j := by have := h.valid; omega
  by_cases le : delay ≤ j
  · have spelled : word = { sample := BitVec.ofInt 24 (ys (j - delay)), good := true } := by
      rw [hword]
      split
      next none => rw [none, Nat.sub_zero]
      next some => rw [h.behind hd, h.samples delay (by omega) le hd]
    have failing : fails = readFails passing .delay out 0 word := by rw [hf, readFails, spelled]; rfl
    rw [lineStep_read h.wf (h.index_lt pos) hd few hr hword fails failing, if_pos (within.mpr le), if_pos le,
      h.behind hd, spelled, sample_toInt (bound _).1 (bound _).2]
  · rw [lineStep_read h.wf (h.index_lt pos) hd few hr hword _ rfl, if_neg (fun lt => le (within.mp lt)), if_neg le]

end LineReady

/-- The capacity is a power of two, at most 16,384 (R39). -/
theorem largestPow_spec (w k : Nat) (h : 16 ≤ w) :
    (∃ e, largestPow w k = 2 ^ e ∧ 4 ≤ e ∧ e ≤ k + 4) ∧ largestPow w k ≤ w ∧
      (w < 16 * 2 ^ (k + 1) → w < 2 * largestPow w k) := by
  induction k with
  | zero =>
    rw [largestPow, if_pos h]
    exact ⟨⟨4, rfl, by omega, by omega⟩, h, fun lt => by omega⟩
  | succ k ih =>
    rw [largestPow]
    split
    next le =>
      refine ⟨⟨k + 5, by ring, by omega, by omega⟩, le, fun lt => ?_⟩
      rw [Nat.pow_succ 2 (k + 1)] at lt
      omega
    next gt =>
      obtain ⟨⟨e, pow, low, high⟩, le, near⟩ := ih
      exact ⟨⟨e, pow, low, by omega⟩, le, fun _ => near (by omega)⟩

/-- Settles O43: a line's run by what it holds before each house sample, one step, and the capacity. -/
theorem delayLine : Obligations.DelayLine := by
  refine ⟨fun run passing ys delays cap base out start mem fails wf pos hs hd bound hf zero succ => ?_,
    fun r passing cap base out delay w valid y mem word fails wf hw hd hv low high hr hword hf => ?_,
    fun passing base out delay w valid y mem => rfl, rfl, fun d few many => ?_⟩
  · have ready (j : Nat) : ∃ w valid m, LineReady cap base start ys mem j w valid m ∧
        run j = lineStep (passing j) cap base out (delays j) w valid (ys j) m := by
      induction j with
      | zero => exact ⟨start, 0, mem, lineReady_start wf hs, zero⟩
      | succ j ih =>
        obtain ⟨w, valid, m, h, hr⟩ := ih
        exact ⟨_, _, _, h.step pos hr, succ j⟩
    intro j
    obtain ⟨w, valid, m, h, hr⟩ := ready j
    have next := h.step pos hr
    have gives := h.gives pos (hd j) hr bound _ rfl
    have failing : fails j ↔ ((passing j).contains { reader := .delay, index := out, tap := 0, reread := false } &&
        (passing j).contains { reader := .delay, index := out, tap := 0, reread := true }) = true := by simp [hf]
    refine ⟨fun le whole => ?_, fun le bad => ?_, fun lt => ?_, next.writeIdx, next.valid, next.outside⟩
    · rw [if_pos le, if_neg (mt failing.mpr whole)] at gives
      exact Prod.mk.inj gives
    · rw [if_pos le, if_pos (failing.mp bad), show start + j + cap - delays j = start + j - delays j + cap by omega,
        Nat.add_mod_right] at gives
      exact Prod.mk.inj gives
    · rw [if_neg (by omega)] at gives
      exact Prod.mk.inj gives
  · have gives := lineStep_read wf hw hd hv hr hword _ rfl
    rw [← readFails_iff] at hf
    refine ⟨fun within whole => ?_, fun within bad => ?_, fun beyond => ?_, lineStep_writeIdx hw hr,
      lineStep_valid hw hv hr, ?_, fun a other => ?_⟩
    · rw [if_pos within, if_neg (mt hf.mpr whole)] at gives
      exact Prod.mk.inj gives
    · rw [if_pos within, if_pos (hf.mp bad)] at gives
      exact Prod.mk.inj gives
    · rw [if_neg (by omega)] at gives
      exact Prod.mk.inj gives
    · rw [lineStep_mem hw hr, Memory.read_write _ _ _ wf, if_pos rfl]
    · rw [lineStep_mem hw hr, Memory.read_write _ _ _ wf, if_neg other]
  · obtain ⟨⟨e, pow, low, high⟩, le, near⟩ := largestPow_spec (16 * d) 10 (by omega)
    exact ⟨by unfold delayCapacity; omega, ⟨e, pow, low, high⟩, near (by omega)⟩

/-! ## O40 -/

/-- What the delay line of an output does at a house sample, after its first four steps (R134). -/
def OutRec.lineAt (o : OutRec) (passing : List Access) (groups : Byte) (house : Bool) (cap base k : Nat) (mem : Memory) :
    LineStep :=
  lineStep passing cap (base + k * cap) k (o.upToDuck groups house).delay o.writeIdx o.valid (sat24 o.trimmed) mem

/-- Sample memory as output number `k + i` finds it, the outputs from number `k` on being those of a list (R134). -/
def stageMem (passing : List Access) (groups : Byte) (house : Bool) (cap base : Nat) :
    List OutRec → Nat → Memory → Nat → Memory
  | o :: os, k, mem, i + 1 => stageMem passing groups house cap base os (k + 1)
      (o.lineAt passing groups house cap base k mem).mem i
  | _, _, mem, _ => mem

/-- Does an output's sum saturate in the mix or at its trim (R136)? -/
def OutRec.saturates (o : OutRec) : Bool := o.heldClipped || sat24 o.trimmed != o.trimmed

section Stage

variable (passing : List Access) (groups : Byte) (house : Bool) (cap base : Nat) (sums : Nat → Int × Bool)

theorem endDuck_held (o : OutRec) : (o.endDuck.heldSum, o.endDuck.heldClipped, o.endDuck.trim, o.endDuck.m,
    o.endDuck.writeIdx, o.endDuck.valid, o.endDuck.clip, o.endDuck.ownMute, o.endDuck.mask, o.endDuck.stepTaken) =
    (o.heldSum, o.heldClipped, o.trim, o.m, o.writeIdx, o.valid, o.clip, o.ownMute, o.mask, o.stepTaken) := by
  unfold OutRec.endDuck
  split
  · split <;> rfl
  · rfl

/-- The first three steps change the mute gain and the delay alone (R134). -/
theorem upToDuck_held (o : OutRec) : ((o.upToDuck groups house).heldSum, (o.upToDuck groups house).heldClipped,
    (o.upToDuck groups house).trim, (o.upToDuck groups house).m, (o.upToDuck groups house).writeIdx,
    (o.upToDuck groups house).valid, (o.upToDuck groups house).clip, (o.upToDuck groups house).ownMute,
    (o.upToDuck groups house).mask, (o.upToDuck groups house).stepTaken) =
    (o.heldSum, o.heldClipped, o.trim, (o.stepMute groups house).m, o.writeIdx, o.valid, o.clip, o.ownMute, o.mask,
      false) := endDuck_held (o.stepMute groups house)

theorem runStage_cons (o : OutRec) (os : List OutRec) (k : Nat) (mem : Memory) :
    runStage passing groups house cap base sums (o :: os) k mem =
      let line := o.lineAt passing groups house cap base k mem
      let rest := runStage passing groups house cap base sums os (k + 1) line.mem
      { outs := (o.upToDuck groups house).finish line (sums k) :: rest.outs
        slots := (o.stepMute groups house).slotValue :: rest.slots
        mem := rest.mem
        sats := if o.saturates then
            { out := k, mix := o.heldClipped, trim := sat24 o.trimmed != o.trimmed } :: rest.sats
          else rest.sats
        failed := match line.failed with | some w => (k, w) :: rest.failed | none => rest.failed } := by
  have held := upToDuck_held groups house o
  simp only [Prod.mk.injEq] at held
  obtain ⟨sum, clipped, trim, -, writeIdx, valid, -⟩ := held
  have trimmed : (o.upToDuck groups house).trimmed = o.trimmed := by rw [OutRec.trimmed, sum, trim]; rfl
  rw [runStage]
  simp only [clipped, trimmed, writeIdx, valid]
  rfl

variable {passing groups house cap base sums} {os : List OutRec} {k : Nat} {mem : Memory}

theorem stageMem_zero : stageMem passing groups house cap base os k mem 0 = mem := by cases os <;> rfl

theorem stageMem_succ {i : Nat} {o : OutRec} (h : os[i]? = some o) :
    stageMem passing groups house cap base os k mem (i + 1) =
      (o.lineAt passing groups house cap base (k + i) (stageMem passing groups house cap base os k mem i)).mem := by
  induction os generalizing i k mem with
  | nil => nomatch h
  | cons p os ih =>
    cases i with
    | zero =>
      obtain rfl : p = o := Option.some.inj h
      rw [stageMem, stageMem_zero, stageMem_zero]
      rfl
    | succ i =>
      rw [stageMem, ih (List.getElem?_cons_succ ▸ h), stageMem, Nat.add_assoc, Nat.add_comm 1 i]

theorem runStage_mem : (runStage passing groups house cap base sums os k mem).mem =
    stageMem passing groups house cap base os k mem os.length := by
  induction os generalizing k mem with
  | nil => rfl
  | cons o os ih =>
    rw [runStage_cons]
    exact ih

theorem runStage_slots {i : Nat} {o : OutRec} (h : os[i]? = some o) :
    (runStage passing groups house cap base sums os k mem).slots[i]? = some (o.stepMute groups house).slotValue := by
  induction os generalizing i k mem with
  | nil => nomatch h
  | cons p os ih =>
    rw [runStage_cons]
    cases i with
    | zero => exact congrArg (fun v : OutRec => some (v.stepMute groups house).slotValue) (Option.some.inj h)
    | succ i => exact ih h

theorem runStage_outs {i : Nat} {o : OutRec} (h : os[i]? = some o) :
    (runStage passing groups house cap base sums os k mem).outs[i]? = some ((o.upToDuck groups house).finish
      (o.lineAt passing groups house cap base (k + i) (stageMem passing groups house cap base os k mem i))
      (sums (k + i))) := by
  induction os generalizing i k mem with
  | nil => nomatch h
  | cons p os ih =>
    rw [runStage_cons]
    cases i with
    | zero =>
      obtain rfl : p = o := Option.some.inj h
      rw [stageMem_zero]
      rfl
    | succ i =>
      refine (ih h).trans ?_
      rw [stageMem, Nat.add_assoc, Nat.add_comm 1 i]

theorem runStage_lengths : (runStage passing groups house cap base sums os k mem).outs.length = os.length ∧
    (runStage passing groups house cap base sums os k mem).slots.length = os.length := by
  induction os generalizing k mem with
  | nil => exact ⟨rfl, rfl⟩
  | cons o os ih =>
    rw [runStage_cons]
    exact ⟨congrArg (· + 1) (ih (k := k + 1)).1, congrArg (· + 1) (ih (k := k + 1)).2⟩

theorem runStage_sats_length : (runStage passing groups house cap base sums os k mem).sats.length =
    (os.filter OutRec.saturates).length := by
  induction os generalizing k mem with
  | nil => rfl
  | cons o os ih =>
    rw [runStage_cons]
    dsimp only
    cases h : o.saturates with
    | true => rw [if_pos rfl, List.filter_cons_of_pos h]; exact congrArg (· + 1) ih
    | false => rw [if_neg (by decide), List.filter_cons_of_neg (by simp [h])]; exact ih

/-- The first saturation is that of the lowest output that saturates (R136). -/
theorem runStage_sats_head {i : Nat} {o : OutRec} (h : os[i]? = some o) (sat : o.saturates = true)
    (low : ∀ (j : Nat) (d : OutRec), j < i → os[j]? = some d → d.saturates = false) :
    ∃ rest, (runStage passing groups house cap base sums os k mem).sats =
      { out := k + i, mix := o.heldClipped, trim := sat24 o.trimmed != o.trimmed } :: rest := by
  induction os generalizing i k mem with
  | nil => nomatch h
  | cons p os ih =>
    rw [runStage_cons]
    dsimp only
    cases i with
    | zero =>
      obtain rfl : p = o := Option.some.inj h
      rw [if_pos sat]
      exact ⟨_, rfl⟩
    | succ i =>
      rw [low 0 p (Nat.succ_pos i) rfl, if_neg (by decide), show k + (i + 1) = k + 1 + i by omega]
      exact ih h fun j d lt hd => low (j + 1) d (Nat.succ_lt_succ lt) hd

/-- No line from an output on fails (R43). -/
theorem runStage_failed_nil (whole : ∀ (j : Nat) (o : OutRec), os[j]? = some o →
      (o.lineAt passing groups house cap base (k + j) (stageMem passing groups house cap base os k mem j)).failed = none) :
    (runStage passing groups house cap base sums os k mem).failed = [] := by
  induction os generalizing k mem with
  | nil => rfl
  | cons p os ih =>
    have first := whole 0 p rfl
    rw [stageMem_zero] at first
    rw [runStage_cons]
    dsimp only
    rw [show k = k + 0 from rfl, first]
    refine ih fun j o h => ?_
    have later := whole (j + 1) o h
    rwa [stageMem, show k + (j + 1) = k + 1 + j by omega] at later

/-- The last failed read of a house sample's delay lines (R43). -/
theorem runStage_failed_last {i w : Nat} {o : OutRec} (h : os[i]? = some o)
    (fails : (o.lineAt passing groups house cap base (k + i) (stageMem passing groups house cap base os k mem i)).failed =
      some w)
    (whole : ∀ (j : Nat) (p : OutRec), i < j → os[j]? = some p →
      (p.lineAt passing groups house cap base (k + j) (stageMem passing groups house cap base os k mem j)).failed = none) :
    ∃ before, (runStage passing groups house cap base sums os k mem).failed = before ++ [(k + i, w)] := by
  induction os generalizing i k mem with
  | nil => nomatch h
  | cons p os ih =>
    rw [runStage_cons]
    dsimp only
    cases i with
    | zero =>
      obtain rfl : p = o := Option.some.inj h
      rw [stageMem_zero] at fails
      rw [show k = k + 0 from rfl, fails]
      refine ⟨[], congrArg (_ :: ·) (runStage_failed_nil fun j q hq => ?_)⟩
      have later := whole (j + 1) q (Nat.succ_pos j) hq
      rwa [stageMem, show k + (j + 1) = k + 1 + j by omega] at later
    | succ i =>
      rw [stageMem, show k + (i + 1) = k + 1 + i by omega] at fails
      obtain ⟨before, run⟩ := ih h fails fun j q lt hq => by
        have later := whole (j + 1) q (Nat.succ_lt_succ lt) hq
        rwa [stageMem, show k + (j + 1) = k + 1 + j by omega] at later
      rw [run, show k + (i + 1) = k + 1 + i by omega]
      split
      · exact ⟨_ :: before, rfl⟩
      · exact ⟨before, rfl⟩

end Stage

theorem sat24_eq (x : Int) : sat24 x = max (-8388608) (min 8388607 x) := by
  unfold sat24
  split
  · omega
  · split <;> omega

theorem sat24_changes (x : Int) : (sat24 x != x) = decide (x < -8388608 ∨ 8388607 < x) := by
  rw [Bool.eq_iff_iff, bne_iff_ne, decide_eq_true_iff, sat24_eq]
  omega

theorem OutRec.muteTarget_eq (o : OutRec) (s : State) : o.muteTarget s.groups s.houseMute =
    if o.ownMute = true ∨ o.mask &&& s.groups ≠ 0 ∨ s.gcMute = true ∨ s.muteAccepted = true ∨ o.pendingDelay ≠ none
      then 0 else 4194304 := if_congr (OutRec.muted_iff o s) rfl rfl

theorem markBlock_outside (s : State) :
    (markBlock s).outs = s.outs ∧ (markBlock s).slots = s.slots ∧ (markBlock s).mem = s.mem ∧
      (markBlock s).scene.active = s.scene.active ∧ (markBlock s).notices = s.notices := by
  unfold markBlock
  split <;> exact ⟨rfl, rfl, rfl, rfl, rfl⟩

/-- A block event that falls in STARTING leaves the feeds and the program (R12). -/
theorem markBlock_starting {s : State} (h : s.starting = true) :
    (markBlock s).feedA = s.feedA ∧ (markBlock s).feedB = s.feedB ∧
      ((markBlock s).sel.state, (markBlock s).sel.n, (markBlock s).sel.pos, (markBlock s).sel.phase) =
        (s.sel.state, s.sel.n, s.sel.pos, s.sel.phase) := by
  unfold markBlock
  split
  · exact ⟨if_pos h, if_pos h, rfl⟩
  · exact ⟨rfl, rfl, rfl⟩

/-- Only notices follow the output stage's own work (R136, R43). -/
theorem raiseLineFaults_kept (failed : List (Nat × Nat)) (s : State) :
    ∃ n, raiseLineFaults failed s = { s with notices := n } ∧ n.routing = s.notices.routing :=
  foldl_keeps (P := fun t => ∃ n, t = { s with notices := n } ∧ n.routing = s.notices.routing)
    (by rintro t f ⟨n, rfl, hn⟩; exact ⟨_, rfl, (raise_routing ..).trans hn⟩) failed ⟨_, rfl, rfl⟩

theorem raiseClip_kept (sats : List Saturation) (s : State) :
    raiseClip sats s = { s with notices := (raiseClip sats s).notices } := by
  unfold raiseClip
  split <;> rfl

/-- The state in which the output stage finds a house sample of RUNNING (R8). -/
def State.staged (reads : SampleReads) (s : State) : State :=
  rampStep (programStep ((inheritRatio s.paced).feedValues reads .a) ((inheritRatio s.paced).feedValues reads .b)
    (inheritRatio s.paced))

theorem State.programmed_plant (s : State) (va vb : List ReadResult) :
    (programStep va vb (inheritRatio s.paced)).plant = s.paced.plant :=
  (programStep_plant ..).trans (inheritRatio_plant _)

theorem State.programmed_routing (s : State) (va vb : List ReadResult) :
    (programStep va vb (inheritRatio s.paced)).notices.routing = s.notices.routing :=
  State.routing_of_still (s := s.paced) ((programStep_still ..).trans (inheritRatio_still _))

/-- The six steps of every output at a house sample of RUNNING, the program inputs being given (R134). -/
def State.stage (reads : SampleReads) (inputs : List Int) (s : State) : StageRun :=
  runStage reads.passing s.groups s.houseMute (delayCapacity s.pagesD) s.delayBase
    (mixSum (s.scene.active.map ActiveRoute.advanced) inputs) s.outs 0 s.mem

/-- A house sample of RUNNING leaves what the output stage made (R8, R134). -/
theorem houseSample_staged {s : State} (line : s.resetLine = false) (phase : s.clock.phase = .running)
    (reads : SampleReads) {u : State} (hu : u = inheritRatio s.paced) {run : StageRun}
    (hrun : run = s.stage reads (u.programInputs (u.feedValues reads .a) (u.feedValues reads .b))) :
    ((houseSample reads s).outs = run.outs ∧ (houseSample reads s).slots = run.slots ∧
      (houseSample reads s).mem = run.mem ∧
      (houseSample reads s).scene.active = s.scene.active.map ActiveRoute.advanced) ∧
    ∃ b : State, b.resetLine = false ∧ b.notices.routing = s.notices.routing ∧
      (houseSample reads s).notices = (raiseClip run.sats (raiseLineFaults run.failed b)).notices := by
  obtain ⟨p, hp⟩ : ∃ p, p = programStep (u.feedValues reads .a) (u.feedValues reads .b) u := ⟨_, rfl⟩
  have plant : p.plant = s.paced.plant := by rw [hp, hu, State.programmed_plant]
  have outs : p.outs = s.outs := State.outs_of_plant (s := s.paced) plant
  have mem : p.mem = s.mem := State.mem_of_plant (s := s.paced) plant
  have active : p.scene = s.scene := State.scene_of_plant (s := s.paced) plant
  have same : run = runStage reads.passing (rampStep p).groups (rampStep p).houseMute (delayCapacity (rampStep p).pagesD)
      (rampStep p).delayBase (mixSum (rampStep p).scene.active
        (u.programInputs (u.feedValues reads .a) (u.feedValues reads .b))) (rampStep p).outs 0 (rampStep p).mem := by
    have groups : p.groups = s.groups := State.groups_of_plant (s := s.paced) plant
    have gcMute : p.gcMute = s.gcMute := State.gcMute_of_plant (s := s.paced) plant
    have accepted : p.muteAccepted = s.muteAccepted := State.muteAccepted_of_plant (s := s.paced) plant
    have pages : p.pagesD = s.pagesD := State.pagesD_of_plant (s := s.paced) plant
    show _ = runStage reads.passing p.groups (p.gcMute || p.muteAccepted) (delayCapacity p.pagesD)
      ((1024 - p.pagesD) * Config.pageWords) (mixSum (p.scene.active.map ActiveRoute.advanced) _) p.outs 0 p.mem
    rw [groups, gcMute, accepted, pages, active, outs, mem, hrun]
    rfl
  obtain ⟨b, hb⟩ : ∃ b : State, b = { rampStep p with outs := run.outs, slots := run.slots, mem := run.mem } := ⟨_, rfl⟩
  have sample : houseSample reads s = markBlock (raiseClip run.sats (raiseLineFaults run.failed b)) := by
    rw [houseSample_running line phase, ← hu, ← hp, hb, outputStage, ← same]
  obtain ⟨n, faults, -⟩ := raiseLineFaults_kept run.failed b
  obtain ⟨o1, o2, o3, o4, o5⟩ := markBlock_outside (raiseClip run.sats (raiseLineFaults run.failed b))
  rw [raiseClip_kept, faults] at o1 o2 o3 o4
  rw [sample]
  refine ⟨⟨?_, ?_, ?_, ?_⟩, b, ?_, ?_, o5⟩
  · rw [raiseClip_kept, faults, o1, hb]
  · rw [raiseClip_kept, faults, o2, hb]
  · rw [raiseClip_kept, faults, o3, hb]
  · rw [raiseClip_kept, faults, o4, hb, ← active]
    rfl
  · rw [hb]
    exact (State.resetLine_of_plant (s := s.paced) plant).trans line
  · rw [hb, ← State.programmed_routing s (u.feedValues reads .a) (u.feedValues reads .b), ← hu, ← hp]
    rfl

theorem upToDuck_ended {o : OutRec} {groups : Byte} {house : Bool} {d : Nat} (waits : o.pendingDelay = some d)
    (silent : (o.stepMute groups house).m = 0) :
    (o.upToDuck groups house).delay = d ∧ (o.upToDuck groups house).pendingDelay = none := by
  have pending : (o.stepMute groups house).pendingDelay = some d := waits
  rw [OutRec.upToDuck, OutRec.endDuck, pending]
  dsimp only
  rw [if_pos silent]
  exact ⟨rfl, rfl⟩

theorem upToDuck_unended {o : OutRec} {groups : Byte} {house : Bool}
    (h : o.pendingDelay = none ∨ (o.stepMute groups house).m ≠ 0) :
    (o.upToDuck groups house).delay = o.delay ∧ (o.upToDuck groups house).pendingDelay = o.pendingDelay := by
  unfold OutRec.upToDuck OutRec.endDuck
  split
  next d waits =>
    rw [if_neg (h.resolve_left fun none => by simp [OutRec.stepMute, none] at waits)]
    exact ⟨rfl, rfl⟩
  · exact ⟨rfl, rfl⟩

/-- CLIP names the lowest output that saturated, its causes and how many did (R136). -/
theorem raiseClip_shows {b : State} (line : b.resetLine = false) {r : Role}
    (goes : b.notices.routing.getD 12 none = some r) (v : Saturation) (rest : List Saturation) :
    (raiseClip (v :: rest) b).notices.Shows r .clip
      (be 1 v.out ++ [bitsByte [v.mix, v.trim]] ++ cap8 (rest.length + 1) ++ [0]) b.houseTime :=
  raise_shows (k := .clip) line goes _

/-- The MEMFAULT record shows the last delay line that failed (R43). -/
theorem raiseLineFaults_shows {b : State} (line : b.resetLine = false) {r : Role}
    (goes : b.notices.routing.getD 0 none = some r) (before : List (Nat × Nat)) (k w : Nat) (sats : List Saturation) :
    ∃ time, (raiseClip sats (raiseLineFaults (before ++ [(k, w)]) b)).notices.Shows r .memfault
      (be 1 2 ++ be 1 k ++ low16 w) time := by
  obtain ⟨n, faults, routing⟩ := raiseLineFaults_kept before b
  have shown : (raiseLineFaults (before ++ [(k, w)]) b).notices.Shows r .memfault (be 1 2 ++ be 1 k ++ low16 w)
      b.houseTime := by
    rw [raiseLineFaults, List.foldl_append]
    show (raise .memfault _ (raiseLineFaults before b)).notices.Shows r .memfault _ _
    rw [faults]
    exact raise_shows (s := { b with notices := n }) (k := .memfault) line (by rw [← goes, ← routing]; rfl) _
  refine ⟨b.houseTime, ?_⟩
  unfold raiseClip
  split
  · exact shown
  · exact shown.raise (by decide) _

/-- Settles O40: the output stage by its six steps, and the mute step alone in STARTING. -/
theorem outputSamples : Obligations.OutputSamples := by
  refine ⟨fun s t reads line phase ht => ?_, fun s t reads trimmed sat line phase ht htrim hsat => ?_,
    fun s t reads line phase ht => ?_⟩
  · obtain ⟨u, hu⟩ : ∃ u, u = inheritRatio s.paced := ⟨_, rfl⟩
    obtain ⟨inputs, hin⟩ : ∃ v, v = u.programInputs (u.feedValues reads .a) (u.feedValues reads .b) := ⟨_, rfl⟩
    obtain ⟨run, hrun⟩ : ∃ v, v = s.stage reads inputs := ⟨_, rfl⟩
    obtain ⟨⟨outs, slots, mem, active⟩, -⟩ := houseSample_staged line phase reads hu (hin ▸ hrun)
    rw [← ht] at outs slots active
    have clock : u.clock = s.clock.sampled := by rw [hu]; exact State.clock_of_plant (s := s.paced) (inheritRatio_plant _)
    refine ⟨?_, ?_, active, inputs, ⟨u, hin, by rw [clock]; rfl, by rw [clock]; exact hu⟩,
      fun k o target m sum trim held htarget hm hsum htrim => ?_⟩
    · rw [outs, hrun]
      exact runStage_lengths.1
    · rw [slots, hrun]
      exact runStage_lengths.2
    · have gain : (o.stepMute s.groups s.houseMute).m = m := by
        rw [hm, htarget, ← OutRec.muteTarget_eq]
        rfl
      have kept := upToDuck_held s.groups s.houseMute o
      simp only [Prod.mk.injEq] at kept
      obtain ⟨heldSum, clipped, oTrim, oM, -, -, clip, own, mask, taken⟩ := kept
      have out := congrArg (fun l : List OutRec => l[k]?) outs
      rw [hrun] at out
      replace out := out.trans (runStage_outs held)
      rw [Nat.zero_add] at out
      have mix : sum = scale22 (mixExact (s.scene.active.map ActiveRoute.advanced) inputs k) := by
        rw [hsum, active]
        rfl
      refine ⟨?_, _, out, ?_, ?_, fun d waits silent => ?_, fun h => ?_, ?_, ?_, ?_⟩
      · rw [slots, hrun, ← gain]
        exact runStage_slots held
      · exact oM.trans gain
      · show ((o.upToDuck s.groups s.houseMute).trim, (o.upToDuck s.groups s.houseMute).ownMute,
          (o.upToDuck s.groups s.houseMute).mask, (o.upToDuck s.groups s.houseMute).stepTaken) = _
        rw [oTrim, own, mask, taken]
      · exact upToDuck_ended waits (gain.trans silent)
      · exact upToDuck_unended (gain.symm ▸ h)
      · rw [mix]
        exact sat24_eq _
      · rw [mix]
        exact sat24_changes _
      · show ((o.upToDuck s.groups s.houseMute).clip || (o.upToDuck s.groups s.houseMute).heldClipped ||
          (sat24 (o.upToDuck s.groups s.houseMute).trimmed != (o.upToDuck s.groups s.houseMute).trimmed)) = _
        rw [clip, clipped, sat24_changes, OutRec.trimmed, heldSum, oTrim, htrim]
        rfl
  · obtain ⟨u, hu⟩ : ∃ u, u = inheritRatio s.paced := ⟨_, rfl⟩
    obtain ⟨inputs, hin⟩ : ∃ v, v = u.programInputs (u.feedValues reads .a) (u.feedValues reads .b) := ⟨_, rfl⟩
    obtain ⟨run, hrun⟩ : ∃ v, v = s.stage reads inputs := ⟨_, rfl⟩
    obtain ⟨⟨outs, slots, mem, active⟩, b, bline, routing, notices⟩ := houseSample_staged line phase reads hu (hin ▸ hrun)
    rw [← ht] at outs mem notices
    have trimOf (o : OutRec) : trimmed o = o.trimmed := htrim o
    have satOf (o : OutRec) : sat o = (sat24 o.trimmed != o.trimmed) := by rw [hsat, trimOf, sat24_changes]
    have saturates (o : OutRec) : o.saturates = (o.heldClipped || sat o) := by rw [OutRec.saturates, satOf]
    obtain ⟨mems, hmems⟩ : ∃ m : Nat → Memory, m = stageMem reads.passing s.groups s.houseMute (delayCapacity s.pagesD)
      s.delayBase s.outs 0 s.mem := ⟨_, rfl⟩
    obtain ⟨lineOf, hline⟩ : ∃ l : Nat → LineStep, l = fun k => (s.outs.getD k outReset).lineAt reads.passing s.groups
      s.houseMute (delayCapacity s.pagesD) s.delayBase k (mems k) := ⟨_, rfl⟩
    have lineIs {k : Nat} {o : OutRec} (held : s.outs[k]? = some o) : lineOf k = o.lineAt reads.passing s.groups
        s.houseMute (delayCapacity s.pagesD) s.delayBase k (mems k) := by
      rw [hline]
      dsimp only
      rw [List.getD_eq_getElem?_getD, held]
      rfl
    refine ⟨mems, lineOf, by rw [hmems, stageMem_zero], by rw [mem, hrun, hmems]; exact runStage_mem,
      fun k o p held shown => ?_, fun k o r held saturated low goes => ?_, fun k w r lt fails whole goes => ?_⟩
    · have out := congrArg (fun l : List OutRec => l[k]?) outs
      rw [hrun] at out
      replace out := out.trans (runStage_outs held)
      rw [Nat.zero_add, ← hmems, ← lineIs held] at out
      obtain rfl := Option.some.inj (shown.symm.trans out)
      refine ⟨?_, ?_, rfl⟩
      · rw [lineIs held, trimOf, ← sat24_eq]
        rfl
      · rw [lineIs held, hmems, stageMem_succ held, Nat.zero_add]
    · obtain ⟨rest, sats⟩ : ∃ rest, run.sats = ⟨0 + k, o.heldClipped, sat24 o.trimmed != o.trimmed⟩ :: rest := by
        rw [hrun]
        exact runStage_sats_head held ((saturates o).trans saturated) fun j d lt hd => (saturates d).trans (low j d lt hd)
      have count : rest.length + 1 = (s.outs.filter fun d => d.heldClipped || sat d).length := by
        rw [← show OutRec.saturates = _ from funext saturates, ← List.length_cons, ← sats, hrun]
        exact runStage_sats_length
      obtain ⟨n, faults, kept⟩ := raiseLineFaults_kept run.failed b
      rw [sats, faults] at notices
      have shown := raiseClip_shows (b := { b with notices := n }) bline (kept.trans routing ▸ goes)
        ⟨0 + k, o.heldClipped, sat24 o.trimmed != o.trimmed⟩ rest
      rw [← notices, count, Nat.zero_add] at shown
      obtain ⟨v, hv, kind, detail, -⟩ := shown
      refine ⟨v, hv, kind, detail.trans ?_⟩
      rw [be_one, bitsByte_two_eq, ← satOf, cap8, be_one]
      rfl
    · obtain ⟨o, held⟩ : ∃ o, s.outs[k]? = some o := ⟨_, List.getElem?_eq_getElem lt⟩
      obtain ⟨before, last⟩ : ∃ before, run.failed = before ++ [(0 + k, w)] := by
        rw [hrun]
        refine runStage_failed_last held ?_ fun j p below hp => ?_
        · rw [← hmems, Nat.zero_add, ← lineIs held]
          exact fails
        · rw [← hmems, Nat.zero_add, ← lineIs hp]
          exact whole j below (List.getElem?_eq_some_iff.mp hp).1
      obtain ⟨time, v, hv, kind, detail, -⟩ := raiseLineFaults_shows bline (routing ▸ goes) before (0 + k) w run.sats
      rw [← last, ← notices] at hv
      refine ⟨v, hv, kind, detail.trans ?_⟩
      rw [be_one, be_one, Nat.zero_add]
      rfl
  · have starts : ({ s with clock := s.clock.sampled } : State).starting = true := by
      show (s.clock.phase == .starting) = true
      rw [phase]
      rfl
    have act : t = markBlock (startingSample { s with clock := s.clock.sampled }) := by
      rw [ht, houseSample, if_neg (by simp [line]), makeSample, sampleWork, if_pos starts]
    obtain ⟨outs, slots, mem, active, notices⟩ := markBlock_outside (startingSample { s with clock := s.clock.sampled })
    obtain ⟨feedA, feedB, sel⟩ := markBlock_starting (s := startingSample { s with clock := s.clock.sampled }) starts
    rw [← act] at outs slots mem active notices feedA feedB sel
    refine ⟨mem, feedA, feedB, notices, sel, ?_, ?_, ?_, fun k o target held htarget => ?_, active⟩
    · intro v hv
      rw [slots] at hv
      obtain ⟨o, -, rfl⟩ := List.mem_map.mp hv
      rfl
    · rw [slots]
      exact List.length_map ..
    · rw [outs]
      exact List.length_map ..
    · rw [outs]
      show (s.outs.map fun o => o.stepMute s.groups s.houseMute)[k]? = _
      rw [List.getElem?_map, held, htarget, ← OutRec.muteTarget_eq]
      rfl

end Sys2Proof.Machine
end

section
/-!
O28, O29: interpolation and the program inputs; the frames that a feed reads.
-/

namespace Sys2Proof.Machine

open Sys2Proof

/-! ## O28 -/

theorem sat24_of_fits {x : Int} (low : -8388608 ≤ x) (high : x ≤ 8388607) : sat24 x = x := by
  rw [sat24_eq]
  omega

theorem sat24_fits (x : Int) : -8388608 ≤ sat24 x ∧ sat24 x ≤ 8388607 := by
  rw [sat24_eq]
  omega

/-- The shifts of the interpolation are floors of divisions (R82, R83). -/
theorem shiftRight_five (a : Int) : a >>> 5 = a / 32 := shiftRight_eq_div a 5
theorem shiftRight_sixteen (a : Int) : a >>> 16 = a / 65536 := shiftRight_eq_div a 16
theorem shiftRight_seventeen (a : Int) : a >>> 17 = a / 131072 := shiftRight_eq_div a 17

/-- The cubic as a formula, each shift a floor (R82). -/
theorem cubic_eq (p0 p1 p2 p3 : Int) (u : Nat) : cubic p0 p1 p2 p3 u =
    sat24 (p1 + ((((p3 - p0 + 3 * (p1 - p2)) * u / 65536 + (2 * p0 - 5 * p1 + 4 * p2 - p3)) * u / 65536 + (p2 - p0)) * u /
      131072)) := by
  simp only [cubic, shiftRight_sixteen, shiftRight_seventeen]

theorem halfBand_eq (m3 m1 x p1 p3 : Int) :
    halfBand m3 m1 x p1 p3 = sat24 ((-m3 + 9 * m1 + 16 * x + 9 * p1 - p3) / 32) := by
  rw [halfBand, shiftRight_five]

/-- On a straight line the cubic is the line, but for its floor (R82). -/
theorem cubic_line (p d : Int) (u : Nat) : cubic (p - d) p (p + d) (p + 2 * d) u = sat24 (p + d * u / 65536) := by
  have third : p + 2 * d - (p - d) + 3 * (p - (p + d)) = 0 := by ring
  have second : 2 * (p - d) - 5 * p + 4 * (p + d) - (p + 2 * d) = 0 := by ring
  have first : p + d - (p - d) = d * 2 := by ring
  have halved : d * 2 * u / 131072 = d * u / 65536 := by
    rw [show d * 2 * (u : Int) = d * u * 2 by ring, show (131072 : Int) = 65536 * 2 by norm_num,
      Int.mul_ediv_mul_of_pos_left _ _ (by norm_num)]
  rw [cubic_eq, third, second, first, Int.zero_mul, Int.zero_ediv, Int.zero_add, Int.zero_mul, Int.zero_ediv, Int.zero_add,
    halved]

/-- A weighted mean of two samples with weights of at most the whole stays within 24 bits (R90). -/
theorem weighted_fits {whole wx wy : Nat} {vx vy : Int} (pos : 0 < whole) (weights : wx + wy ≤ whole)
    (hx : -8388608 ≤ vx ∧ vx ≤ 8388607) (hy : -8388608 ≤ vy ∧ vy ≤ 8388607) :
    -8388608 ≤ (wx * vx + wy * vy) / (whole : Int) ∧ (wx * vx + wy * vy) / (whole : Int) ≤ 8388607 := by
  have weights' : (wx : Int) + wy ≤ whole := by exact_mod_cast weights
  have wx0 : (0 : Int) ≤ wx := Int.natCast_nonneg _
  have wy0 : (0 : Int) ≤ wy := Int.natCast_nonneg _
  have pos' : (0 : Int) < whole := by exact_mod_cast pos
  constructor
  · rw [Int.le_ediv_iff_mul_le pos']
    nlinarith
  · rw [← Int.lt_add_one_iff, Int.ediv_lt_iff_lt_mul pos']
    nlinarith

theorem Setup.isDouble_iff (u : Setup) (house : Rate) : u.isDouble house = true ↔ u.rate = .k96 ∧ house = .k48 := by
  unfold Setup.isDouble
  cases u.rate <;> cases house <;> decide

/-- A channel of a feed at base 1/2 or 1 (R81, R82). -/
theorem channelValue_single {s : State} {x : Side} (h : (s.feed x).setup.isDouble s.clock.rateClass = false)
    (passing : List Access) (made : List MadeRead) (c : Nat) {read : Nat → Int → ReadResult}
    (hread : ∀ tap t, read tap t = s.ringRead passing made { feed := x, channel := c, tap := tap } t) {i : Int}
    (hi : i = (s.feed x).rs.i) :
    s.channelValue passing made x c =
      (cubic (read 0 (i - 1)).1 (read 5 i).1 (read 10 (i + 1)).1 (read 15 (i + 2)).1 ((s.feed x).rs.phi / 4096),
        (read 0 (i - 1)).2 ++ (read 5 i).2 ++ (read 10 (i + 1)).2 ++ (read 15 (i + 2)).2) := by
  have point (k : Nat) (t : Int) : s.pointReads passing made x c k false t = [read (5 * k) t] := by
    rw [hread]
    rfl
  have p0 : (s.feed x).rs.i - 1 + ((0 : Nat) : Int) = i - 1 := by omega
  have p1 : (s.feed x).rs.i - 1 + ((1 : Nat) : Int) = i := by omega
  have p2 : (s.feed x).rs.i - 1 + ((2 : Nat) : Int) = i + 1 := by omega
  have p3 : (s.feed x).rs.i - 1 + ((3 : Nat) : Int) = i + 2 := by omega
  rw [State.channelValue, h]
  simp only [point, pointValue, List.range_succ, List.range_zero, List.nil_append, List.flatMap_append, List.flatMap_cons,
    List.flatMap_nil, List.append_nil, p0, p1, p2, p3]
  rfl

/-- A channel of a feed at base 2: the points are half-band sums (R83). -/
theorem channelValue_double {s : State} {x : Side} (h : (s.feed x).setup.isDouble s.clock.rateClass = true)
    (passing : List Access) (made : List MadeRead) (c : Nat) {read : Nat → Int → ReadResult}
    (hread : ∀ tap t, read tap t = s.ringRead passing made { feed := x, channel := c, tap := tap } t) {i : Int}
    (hi : i = (s.feed x).rs.i) {value : Nat → Int}
    (hvalue : ∀ k : Nat, value k = halfBand (read (5 * k) (i - 4 + k)).1 (read (5 * k + 1) (i - 2 + k)).1
      (read (5 * k + 2) (i - 1 + k)).1 (read (5 * k + 3) (i + k)).1 (read (5 * k + 4) (i + 2 + k)).1) :
    s.channelValue passing made x c =
      (cubic (value 0) (value 1) (value 2) (value 3) ((s.feed x).rs.phi / 4096),
        (List.range 4).flatMap fun k : Nat =>
          (read (5 * k) (i - 4 + k)).2 ++ (read (5 * k + 1) (i - 2 + k)).2 ++ (read (5 * k + 2) (i - 1 + k)).2 ++
            (read (5 * k + 3) (i + k)).2 ++ (read (5 * k + 4) (i + 2 + k)).2) := by
  have point (k : Nat) : s.pointReads passing made x c k true ((s.feed x).rs.i - 1 + k) =
      [read (5 * k) (i - 4 + k), read (5 * k + 1) (i - 2 + k), read (5 * k + 2) (i - 1 + k), read (5 * k + 3) (i + k),
        read (5 * k + 4) (i + 2 + k)] := by
    rw [← hi, show i - 4 + k = i - 1 + k - 3 by omega, show i - 2 + k = i - 1 + k - 1 by omega,
      show i + (k : Int) = i - 1 + k + 1 by omega, show i + 2 + (k : Int) = i - 1 + k + 3 by omega]
    simp only [hread]
    rfl
  rw [State.channelValue, h]
  simp only [point, hvalue]
  refine congrArg₂ Prod.mk rfl (congrArg (fun g => List.flatMap g (List.range 4)) (funext fun k => ?_))
  simp only [List.flatMap_cons, List.flatMap_nil, List.append_nil, List.append_assoc]

theorem feedValues_get {s : State} {reads : SampleReads} {x : Side} (isRead : (s.feed x).isRead = true) {c : Nat}
    (hc : c < (s.feed x).setup.n) :
    (s.feedValues reads x)[c]? = some (s.channelValue reads.passing (s.readsMade reads) x c) := by
  rw [State.feedValues, if_pos isRead, List.getElem?_map, List.getElem?_range hc]
  rfl

theorem feedValues_length (s : State) (reads : SampleReads) (x : Side) :
    (s.feedValues reads x).length = if (s.feed x).isRead then (s.feed x).setup.n else 0 := by
  rw [State.feedValues]
  split
  · rw [List.length_map, List.length_range]
  · rfl

theorem programInputs_get (s : State) (va vb : List ReadResult) {c : Nat} (hc : c < 96) :
    (s.programInputs va vb)[c]? = some (match s.sel.state.leader with
      | none => 0
      | some x => if c < (s.feed x).setup.n then s.sel.input (va.getD c (0, [])).1 (vb.getD c (0, [])).1 else 0) := by
  rw [State.programInputs, List.getElem?_map, List.getElem?_range hc]
  rfl

theorem shiftRight_nat_eq_div (a : Int) (n : Nat) : a >>> n = a / 2 ^ n := by
  rw [Int.shiftRight_eq_div_pow]
  norm_cast

/-- The value of a feed among those of the two (R90). -/
def feedValue (va vb : Int) : Side → Int
  | .a => va
  | .b => vb

section Input

variable {v : Selector} {x : Side} {va vb vx vy : Int} (hx : vx = feedValue va vb x) (hy : vy = feedValue va vb x.other)

theorem input_silent (h : v.state = .silent) : v.input va vb = 0 := by rw [Selector.input, h]

include hx in
theorem input_onair (h : v.state = .onair x) : v.input va vb = vx := by
  rw [Selector.input, h, hx]
  rfl

include hx in
theorem input_rise (h : v.state = .rise x) : v.input va vb = vx * v.n / 2 ^ v.kx := by
  rw [Selector.input, h, hx, ← shiftRight_nat_eq_div]
  rfl

include hx in
theorem input_fade (h : v.state = .fade x) : v.input va vb = vx * ((2 ^ v.kx - v.n : Nat) : Int) / 2 ^ v.kx := by
  rw [Selector.input, h, hx, ← shiftRight_nat_eq_div]
  rfl

include hx hy in
theorem input_xfade (h : v.state = .xfade x) (on : v.abandoned = false) :
    v.input va vb = (((2 ^ v.kx - v.n : Nat) : Int) * vx + v.n * vy) / 2 ^ v.kx := by
  rw [Selector.input, h, hx, hy, ← shiftRight_nat_eq_div]
  dsimp only
  rw [on]
  rfl

include hx hy in
theorem input_abandoned (h : v.state = .xfade x) (off : v.abandoned = true) :
    v.input va vb = (((2 ^ v.kx - v.n0 - v.j : Nat) : Int) * vx +
      ((v.n0 * (2 ^ v.kx - v.n0 - v.j) / (2 ^ v.kx - v.n0) : Nat) : Int) * vy) / 2 ^ v.kx := by
  rw [Selector.input, h, hx, hy, ← shiftRight_nat_eq_div]
  dsimp only
  rw [off]
  cases x <;> rfl

end Input

/-- A program input never leaves 24 bits (R90, R98). -/
theorem input_fits {v : Selector} {va vb : Int} (ha : -8388608 ≤ va ∧ va ≤ 8388607) (hb : -8388608 ≤ vb ∧ vb ≤ 8388607)
    (hn : v.n ≤ 2 ^ v.kx) (hj : v.n0 + v.j ≤ 2 ^ v.kx) :
    -8388608 ≤ v.input va vb ∧ v.input va vb ≤ 8388607 := by
  have fits (x : Side) : -8388608 ≤ feedValue va vb x ∧ feedValue va vb x ≤ 8388607 := by
    cases x
    · exact ha
    · exact hb
  have pos : 0 < 2 ^ v.kx := Nat.two_pow_pos _
  have whole : ((2 ^ v.kx : Nat) : Int) = 2 ^ v.kx := by norm_cast
  cases h : v.state with
  | silent =>
    rw [input_silent h]
    exact ⟨by decide, by decide⟩
  | onair x =>
    rw [input_onair rfl h]
    exact fits x
  | rise x =>
    have mean := weighted_fits (wy := 0) pos (by omega : v.n + 0 ≤ _) (fits x) (fits x)
    rw [input_rise rfl h, mul_comm]
    simpa [whole] using mean
  | fade x =>
    have mean := weighted_fits (wy := 0) pos (by omega : 2 ^ v.kx - v.n + 0 ≤ _) (fits x) (fits x)
    rw [input_fade rfl h, mul_comm]
    simpa [whole] using mean
  | xfade x =>
    cases off : v.abandoned with
    | false =>
      rw [input_xfade rfl rfl h off, ← whole]
      exact weighted_fits pos (by omega) (fits x) (fits x.other)
    | true =>
      rw [input_abandoned rfl rfl h off, ← whole]
      have small : v.n0 * (2 ^ v.kx - v.n0 - v.j) / (2 ^ v.kx - v.n0) ≤ v.n0 :=
        Nat.div_le_of_le_mul (by rw [Nat.mul_comm]; exact Nat.mul_le_mul_right _ (Nat.sub_le ..))
      exact weighted_fits pos (by omega) (fits x) (fits x.other)

/-- Settles O28: the formulas of the interpolation, the values of a feed, and the program inputs with their weights. -/
theorem signalPath : Obligations.SignalPath := by
  refine ⟨⟨fun p d u _ low high => by rw [cubic_line, sat24_of_fits low high], fun p0 p1 p2 p3 low high => ?_,
      fun p0 p1 p2 p3 u => sat24_fits _, fun p low high => ⟨?_, ?_⟩,
      fun p0 p1 p2 p3 u => (cubic_eq ..).trans (sat24_eq _), fun m3 m1 x p1 p3 => (halfBand_eq ..).trans (sat24_eq _)⟩,
    fun s reads x c i u read value isRead hc hi hu hread hvalue => ?_, feedValues_length,
    fun s va vb x c hc => ⟨by simp [State.programInputs], fun silent => ?_, fun leads => ?_⟩,
    fun v x va vb vx vy hx hy alow ahigh blow bhigh hn hn0 hj => ?_⟩
  · rw [cubic_eq, Nat.cast_zero, Int.mul_zero, Int.zero_ediv, Int.add_zero]
    exact sat24_of_fits low high
  · rw [halfBand_eq, show -p + 9 * p + 16 * p + 9 * p - p = p * 32 by ring, Int.mul_ediv_cancel _ (by norm_num)]
    exact sat24_of_fits low high
  · rw [halfBand_eq, show -0 + 9 * 0 + 16 * p + 9 * 0 - 0 = 16 * p by ring, show (16 : Int) * p / 32 = p / 2 by omega]
    exact sat24_of_fits (by omega) (by omega)
  · rw [feedValues_get isRead hc] at hvalue
    obtain rfl := Option.some.inj hvalue
    subst hu hi
    have single (h : (s.feed x).setup.isDouble s.clock.rateClass = false) :=
      channelValue_single h reads.passing (s.readsMade reads) c hread rfl
    refine ⟨fun h => single ?_, fun high low value hv =>
      channelValue_double ((Setup.isDouble_iff ..).mpr ⟨high, low⟩) reads.passing (s.readsMade reads) c hread rfl hv⟩
    rw [← Bool.not_eq_true, Setup.isDouble_iff]
    rintro ⟨high, low⟩
    simp [high, low] at h
  · rw [programInputs_get s va vb hc, silent]
    rfl
  · have leader : s.sel.state.leader = some x := by
      obtain h | h | h | h := leads <;> rw [h] <;> cases x <;> rfl
    rw [programInputs_get s va vb hc, leader]
  · have own : vx = feedValue va vb x := hx.trans (by cases x <;> rfl)
    have other : vy = feedValue va vb x.other := hy.trans (by cases x <;> rfl)
    refine ⟨input_fits ⟨alow, ahigh⟩ ⟨blow, bhigh⟩ hn hj, input_silent, input_onair own,
      input_rise own, fun h => ?_, fun h on => ?_, fun h off => ?_⟩
    · rw [input_fade own h, Nat.cast_sub hn]
      norm_cast
    · rw [input_xfade own other h on, Nat.cast_sub hn]
      norm_cast
    · rw [input_abandoned own other h off, Nat.cast_sub (by omega), Nat.cast_sub (Nat.le_of_lt hn0)]
      norm_cast

/-! ## O29: the class of a frame (R75) -/

/-- A frame within the program (R75, R76). -/
def Feed.Inside (f : Feed) (t : Int) : Prop :=
  (f.startPos : Int) ≤ t ∧ (f.count = 0 ∨ t < (f.startPos : Int) + f.count) ∧
    (∀ e, f.sourceEnd = some e → t ≤ (e : Int)) ∧ t < 2 ^ 40

/-- A frame that is present (R75). -/
def Feed.Present (f : Feed) (t : Int) : Prop :=
  f.Inside t ∧ (f.slotAt t.toNat).stamp = some (32 * (t.toNat / 32)) ∧ (f.slotAt t.toNat).state = .good

/-- A frame that has not arrived (R75). -/
def Feed.Away (f : Feed) (t : Int) : Prop :=
  f.Inside t ∧ ¬ f.Present t ∧ ((f.h : Int) ≤ t ∨
    (f.slotAt t.toNat).stamp = some (32 * (t.toNat / 32)) ∧ (f.slotAt t.toNat).state = .filling)

theorem Feed.outsideProgram_iff (f : Feed) (t : Int) : f.outsideProgram t = true ↔ ¬ f.Inside t := by
  unfold Feed.outsideProgram Feed.Inside
  simp only [Bool.or_eq_true, decide_eq_true_iff, Bool.and_eq_true, bne_iff_ne]
  have top : (Config.posEnd : Int) = 2 ^ 40 := rfl
  rw [top]
  push_cast
  grind

section Classify

variable (f : Feed) (t : Int)

theorem Feed.classify_outside : f.classify t = .outside ↔ ¬ f.Inside t := by
  rw [← Feed.outsideProgram_iff]
  unfold Feed.classify
  split
  next out => simp [out]
  next within =>
    simp only [within]
    split
    · simp
    · split <;> simp

theorem Feed.classify_inside {f : Feed} {t : Int} (h : f.Inside t) : f.classify t =
    if (f.slotAt t.toNat).stamp = some (32 * (t.toNat / 32)) ∧ (f.slotAt t.toNat).state = .good then .present
    else if (f.h : Int) ≤ t ∨ (f.slotAt t.toNat).stamp = some (32 * (t.toNat / 32)) ∧
      (f.slotAt t.toNat).state = .filling then .notArrived
    else .damaged := by
  have within : ¬ f.outsideProgram t = true := by rw [Feed.outsideProgram_iff]; exact not_not.mpr h
  have low : (0 : Int) ≤ t := le_trans (Int.natCast_nonneg _) h.1
  have head : f.h ≤ t.toNat ↔ (f.h : Int) ≤ t := by omega
  rw [Feed.classify, if_neg within]
  simp only [Bool.and_eq_true, beq_iff_eq, Bool.or_eq_true, decide_eq_true_iff, head]

theorem Feed.classify_present : f.classify t = .present ↔ f.Present t := by
  by_cases inside : f.Inside t
  · rw [Feed.classify_inside inside]
    unfold Feed.Present
    split
    next held => simp [inside, held]
    next free =>
      simp only [free, and_false, iff_false]
      split <;> simp
  · rw [(Feed.classify_outside f t).mpr inside]
    simp [Feed.Present, inside]

theorem Feed.classify_notArrived : f.classify t = .notArrived ↔ f.Away t := by
  by_cases inside : f.Inside t
  · unfold Feed.Away
    rw [← Feed.classify_present, Feed.classify_inside inside]
    split
    · simp
    · split <;> simp_all
  · rw [(Feed.classify_outside f t).mpr inside]
    simp [Feed.Away, inside]

end Classify

/-! ## A frame as a feed reads it (R76 to R78) -/

section ReadFrame

variable {s : State} {passing : List Access} {x : Side} {c tap : Nat} {t : Int}

/-- A ring word as a feed's point reads it (R41, R42). -/
theorem readRing_eq (s : State) (passing : List Access) (reader ring : Side) (c tap frame : Nat) :
    s.readRing passing reader ring c tap frame =
      if readFails passing (.feed reader) c tap (s.mem.read (s.ringAddr ring c frame)) then
        (0, [{ ring := ring, channel := c, frame := frame }])
      else ((s.mem.read (s.ringAddr ring c frame)).sample.toInt, []) := rfl

theorem readFrame_outside (h : ¬ (s.feed x).Inside t) : s.readFrame passing x c tap t = (0, []) := by
  rw [State.readFrame, (Feed.classify_outside ..).mpr h]

theorem readFrame_present (h : (s.feed x).Present t) :
    s.readFrame passing x c tap t = s.readRing passing x x c tap t.toNat := by
  rw [State.readFrame, (Feed.classify_present ..).mpr h]

/-- An absent frame within the program is patched or reads 0 (R77, R78). -/
theorem readFrame_absent (inside : (s.feed x).Inside t) (absent : ¬ (s.feed x).Present t) :
    s.readFrame passing x c tap t =
      if s.patches x t then s.readRing passing x x.other c tap t.toNat else (0, []) := by
  have notOut : (s.feed x).classify t ≠ .outside := fun h => (Feed.classify_outside ..).mp h inside
  have notIn : (s.feed x).classify t ≠ .present := fun h => absent ((Feed.classify_present ..).mp h)
  unfold State.readFrame
  cases h : (s.feed x).classify t with
  | outside => exact absurd h notOut
  | present => exact absurd h notIn
  | notArrived => rfl
  | damaged => rfl

theorem patches_iff (s : State) (x : Side) (t : Int) : s.patches x t = true ↔
    s.sel.patch = true ∧ ((s.feed x).role = .leader ∨ (s.feed x).role = .outgoing) ∧ (s.feed x.other).isRead = true ∧
      (s.feed x).rs.rNom = (s.feed x.other).rs.rNom ∧ (s.feed x).setup.n = (s.feed x.other).setup.n ∧
      (s.feed x.other).Present t := by
  simp only [State.patches, Bool.and_eq_true, Bool.or_eq_true, beq_iff_eq, Feed.classify_present, and_assoc]

end ReadFrame

/-! ## The frame that SLIP names (R80, R81) -/

/-- The lowest element of a stretch of integers that has a property. -/
theorem find_stretch {n : Nat} {low t : Int} {p : Int → Bool} :
    ((List.range n).map fun k : Nat => low + k).find? p = some t ↔
      low ≤ t ∧ t < low + n ∧ p t = true ∧ ∀ u, low ≤ u → u < t → p u = false := by
  rw [List.find?_map]
  constructor
  · intro h
    obtain ⟨k, found, rfl⟩ := Option.map_eq_some_iff.mp h
    obtain ⟨holds, inside, before⟩ := List.find?_range_eq_some.mp found
    have lt := List.mem_range.mp inside
    refine ⟨by omega, by omega, holds, fun u le below => ?_⟩
    have earlier := before (u - low).toNat (by omega)
    rw [Function.comp_apply, show low + ((u - low).toNat : Int) = u by omega] at earlier
    simpa using earlier
  · rintro ⟨le, lt, holds, before⟩
    refine Option.map_eq_some_iff.mpr ⟨(t - low).toNat, List.find?_range_eq_some.mpr ⟨?_, ?_, fun j below => ?_⟩, by omega⟩
    · rw [Function.comp_apply, show low + ((t - low).toNat : Int) = t by omega]
      exact holds
    · exact List.mem_range.mpr (by omega)
    · rw [Function.comp_apply, before _ (by omega) (by omega)]
      rfl

theorem find_stretch_none {n : Nat} {low : Int} {p : Int → Bool} :
    ((List.range n).map fun k : Nat => low + k).find? p = none ↔ ∀ t, low ≤ t → t < low + n → p t = false := by
  rw [List.find?_eq_none]
  constructor
  · intro h t le lt
    have absent := h t (List.mem_map.mpr ⟨(t - low).toNat, List.mem_range.mpr (by omega), by omega⟩)
    simpa using absent
  · intro h t mem
    obtain ⟨k, inside, rfl⟩ := List.mem_map.mp mem
    have lt := List.mem_range.mp inside
    rw [h _ (by omega) (by omega)]
    decide

/-! ## The slots that failed reads mark (R42) -/

/-- The ring of a feed with the slots of failed reads DAMAGED. -/
def Feed.damagedBy (f : Feed) (x : Side) (fails : List RingFail) : Feed :=
  { f with ring := f.ring.mapIdx fun k v =>
      if fails.any fun e => e.ring == x && e.frame / 32 % f.setup.slotCount == k then { v with state := .damaged } else v }

theorem damageSlot_feed (e : RingFail) (s : State) (x : Side) :
    (damageSlot e s).feed x = if x = e.ring
      then (s.feed x).setSlot e.frame { (s.feed x).slotAt e.frame with state := .damaged } else s.feed x := by
  rw [damageSlot, State.feed_onFeed]
  split
  next same => rw [same]
  next => rfl

/-- One slot marked, on the ring itself. -/
theorem Feed.setSlot_damaged (f : Feed) (frame : Nat) :
    f.setSlot frame { f.slotAt frame with state := .damaged } =
      { f with ring := f.ring.mapIdx fun k v =>
          if frame / 32 % f.setup.slotCount = k then { v with state := .damaged } else v } := by
  have ring : f.ring.set (frame / 32 % f.setup.slotCount) { f.slotAt frame with state := .damaged } =
      f.ring.mapIdx fun k v => if frame / 32 % f.setup.slotCount = k then { v with state := .damaged } else v := by
    refine List.ext_getElem? fun k => ?_
    rw [List.getElem?_set, List.getElem?_mapIdx, Feed.slotAt, List.getD_eq_getElem?_getD]
    by_cases here : frame / 32 % f.setup.slotCount = k
    · subst here
      rw [if_pos rfl]
      cases held : f.ring[frame / 32 % f.setup.slotCount]? with
      | none => rw [if_neg (by simpa using held)]; rfl
      | some v => rw [if_pos (List.getElem?_eq_some_iff.mp held).1]; simp
    · rw [if_neg here]
      simp [here]
  rw [Feed.setSlot, ring]

theorem Feed.damagedBy_cons (f : Feed) (x : Side) (e : RingFail) (fails : List RingFail) :
    f.damagedBy x (e :: fails) =
      (if x = e.ring then f.setSlot e.frame { f.slotAt e.frame with state := .damaged } else f).damagedBy x fails := by
  split
  next here =>
    rw [Feed.setSlot_damaged, Feed.damagedBy, Feed.damagedBy]
    congr 1
    rw [List.mapIdx_mapIdx]
    refine congrArg (fun g => List.mapIdx g f.ring) (funext fun k => funext fun v => ?_)
    have own : (e.ring == x) = true := by simpa using here.symm
    by_cases hit : e.frame / 32 % f.setup.slotCount = k
    · simp [hit, own]
    · simp [hit]
  next away =>
    have other : (e.ring == x) = false := by simpa using fun h => away h.symm
    simp only [Feed.damagedBy, List.any_cons, other, Bool.false_and, Bool.false_or]

theorem Feed.damagedBy_nil (f : Feed) (x : Side) : f.damagedBy x [] = f := by
  have same : (f.ring.mapIdx fun _ v => v) = f.ring := List.ext_getElem? fun k => by simp
  exact congrArg (fun ring => { f with ring := ring }) same

/-- What several failed reads leave: on each feed every slot of theirs DAMAGED, whatever their order and number. -/
theorem damageSlots_eq (fails : List RingFail) (s : State) :
    fails.foldl (fun t e => damageSlot e t) s =
      { s with feedA := s.feedA.damagedBy .a fails, feedB := s.feedB.damagedBy .b fails } := by
  induction fails generalizing s with
  | nil => rw [Feed.damagedBy_nil, Feed.damagedBy_nil]; rfl
  | cons e fails ih =>
    have feedA := damageSlot_feed e s .a
    have feedB := damageSlot_feed e s .b
    have rest : damageSlot e s = { s with feedA := (damageSlot e s).feed .a, feedB := (damageSlot e s).feed .b } := by
      unfold damageSlot
      cases e.ring <;> rfl
    rw [List.foldl_cons, ih, Feed.damagedBy_cons, Feed.damagedBy_cons]
    rw [feedA, feedB] at rest
    rw [rest]
    rfl

theorem Feed.damagedBy_congr (f : Feed) (x : Side) {l m : List RingFail} (h : ∀ e, e ∈ l ↔ e ∈ m) :
    f.damagedBy x l = f.damagedBy x m := by
  have same (k : Nat) : (l.any fun e => e.ring == x && e.frame / 32 % f.setup.slotCount == k) =
      m.any fun e => e.ring == x && e.frame / 32 % f.setup.slotCount == k := by
    rw [Bool.eq_iff_iff, List.any_eq_true, List.any_eq_true]
    exact exists_congr fun e => and_congr_left fun _ => h e
  simp only [Feed.damagedBy, same]

theorem damageSlots_congr (s : State) {l m : List RingFail} (h : ∀ e, e ∈ l ↔ e ∈ m) :
    l.foldl (fun t e => damageSlot e t) s = m.foldl (fun t e => damageSlot e t) s := by
  rw [damageSlots_eq, damageSlots_eq, Feed.damagedBy_congr _ _ h, Feed.damagedBy_congr _ _ h]

/-! ## The reads of a house sample (R79) -/

theorem mem_feedReads_side {s : State} {x : Side} {r : RingRead} (h : r ∈ s.feedReads x) : r.feed = x := by
  unfold State.feedReads at h
  split at h
  · obtain ⟨c, -, h⟩ := List.mem_flatMap.mp h
    obtain ⟨k, -, h⟩ := List.mem_flatMap.mp h
    obtain ⟨j, -, rfl⟩ := List.mem_map.mp h
    rfl
  · nomatch h

theorem mem_feedReads (s : State) (r : RingRead) : r ∈ s.feedReads r.feed ↔ s.Reads r := by
  have two : (s.feed r.feed).setup.isDouble s.clock.rateClass = true ↔ s.BaseTwo r.feed := Setup.isDouble_iff ..
  unfold State.feedReads
  by_cases isRead : (s.feed r.feed).isRead = true
  · rw [if_pos isRead]
    constructor
    · intro h
      obtain ⟨c, hc, h⟩ := List.mem_flatMap.mp h
      obtain ⟨k, hk, h⟩ := List.mem_flatMap.mp h
      obtain ⟨j, hj, he⟩ := List.mem_map.mp h
      have channel : r.channel = c := by rw [← he]
      have tap : r.tap = 5 * k + j := by rw [← he]
      rw [List.mem_range] at hc hk hj
      refine ⟨isRead, channel ▸ hc, ?_, ?_⟩
      · split at hj <;> omega
      · split at hj
        next double => exact .inl (two.mp double)
        next => exact .inr (by omega)
    · rintro ⟨-, channel, tap, taps⟩
      refine List.mem_flatMap.mpr ⟨r.channel, List.mem_range.mpr channel, List.mem_flatMap.mpr ⟨r.tap / 5,
        List.mem_range.mpr (by omega), List.mem_map.mpr ⟨r.tap % 5, List.mem_range.mpr ?_, ?_⟩⟩⟩
      · split
        next => omega
        next single => have := taps.resolve_left fun h => single (two.mpr h); omega
      · rw [Nat.div_add_mod]
  · rw [if_neg isRead]
    simp [State.Reads, isRead]

/-- Every read of a house sample is of one of the two feeds (R79). -/
theorem mem_allReads (s : State) (r : RingRead) : r ∈ s.feedReads .a ++ s.feedReads .b ↔ s.Reads r := by
  rw [← mem_feedReads, List.mem_append]
  constructor
  · rintro (h | h)
    · rw [mem_feedReads_side h]; exact h
    · rw [mem_feedReads_side h]; exact h
  · intro h
    cases side : r.feed with
    | a => exact .inl (side ▸ h)
    | b => exact .inr (side ▸ h)

/-- The frame of a tap is that of the read (R81, R83). -/
theorem tapFrame_eq {s : State} {r : RingRead} (h : s.Reads r) :
    (s.feed r.feed).tapFrame ((s.feed r.feed).setup.isDouble s.clock.rateClass) r.tap = s.frameOf r := by
  have two : (s.feed r.feed).setup.isDouble s.clock.rateClass = true ↔ s.BaseTwo r.feed := Setup.isDouble_iff ..
  obtain ⟨-, -, -, taps⟩ := h
  unfold State.frameOf Feed.tapFrame
  by_cases double : s.BaseTwo r.feed
  · rw [two.mpr double, if_pos double]
    have small : r.tap % 5 < 5 := Nat.mod_lt _ (by decide)
    generalize r.tap % 5 = j at small
    interval_cases j <;> simp [pointFrames] <;> omega
  · have single : (s.feed r.feed).setup.isDouble s.clock.rateClass = false := by
      rw [← Bool.not_eq_true, two]
      exact double
    rw [single, if_neg double, taps.resolve_left double]
    simp [pointFrames]

theorem nodup_eraseDups {α : Type} [DecidableEq α] (l : List α) : l.eraseDups.Nodup := by
  match l with
  | [] => exact List.nodup_nil
  | a :: l =>
    rw [List.eraseDups_cons, List.nodup_cons]
    exact ⟨fun h => by simpa using List.mem_eraseDups.mp h, nodup_eraseDups _⟩
  termination_by l.length
  decreasing_by exact Nat.lt_succ_of_le (List.length_filter_le ..)

section Made

variable (s : State) (passing : List Access)

/-- Reads made each at most once, whatever their results. -/
def MadeOnce (made : List MadeRead) : Prop := ∀ m ∈ made, ∀ q ∈ made, m.read = q.read → m = q

/-- The late reads follow those made before them, in their order (R79). -/
theorem makeLates_append (late : List RingRead) (made : List MadeRead) :
    ∃ rest : List MadeRead, late.foldl (s.makeLate passing) made = made ++ rest ∧ rest.map MadeRead.read = late := by
  induction late generalizing made with
  | nil => exact ⟨[], (List.append_nil _).symm, rfl⟩
  | cons r late ih =>
    obtain ⟨rest, run, reads⟩ := ih (s.makeLate passing made r)
    exact ⟨_ :: rest, by rw [List.foldl_cons, run, State.makeLate, List.append_assoc]; rfl, by rw [List.map_cons, reads]⟩

theorem madeOnce_append {made rest : List MadeRead} (once : MadeOnce made) (nodup : (rest.map MadeRead.read).Nodup)
    (fresh : ∀ m ∈ made, m.read ∉ rest.map MadeRead.read) : MadeOnce (made ++ rest) := by
  intro m hm q hq same
  rw [List.mem_append] at hm hq
  obtain hm | hm := hm <;> obtain hq | hq := hq
  · exact once m hm q hq same
  · exact absurd (List.mem_map_of_mem hq) (same ▸ fresh m hm)
  · exact absurd (List.mem_map_of_mem hm) (same ▸ fresh q hq)
  · exact List.inj_on_of_nodup_map nodup hm hq same

/-- A read made once is found with its result. -/
theorem find_madeOnce {made : List MadeRead} (once : MadeOnce made) {m : MadeRead} (h : m ∈ made) :
    (made.find? fun q => q.read == m.read) = some m := by
  obtain ⟨q, found⟩ : ∃ q, (made.find? fun q => q.read == m.read) = some q :=
    Option.isSome_iff_exists.mp (List.find?_isSome.mpr ⟨m, h, beq_self_eq_true _⟩)
  have same : q.read = m.read := by simpa using List.find?_some found
  rw [found, once q (List.mem_of_find?_eq_some found) m h same]

/-- The reads of a house sample that are not late, made (R79). -/
def State.firstMade (late : List RingRead) : List MadeRead :=
  ((s.feedReads .a ++ s.feedReads .b).filter fun r => !late.contains r).map fun r =>
    { read := r, result := s.makeRead passing r }

theorem mem_firstMade (late : List RingRead) (m : MadeRead) : m ∈ s.firstMade passing late ↔
    s.Reads m.read ∧ m.read ∉ late ∧ m.result = s.makeRead passing m.read := by
  unfold State.firstMade
  rw [List.mem_map]
  constructor
  · rintro ⟨r, hr, rfl⟩
    rw [List.mem_filter, mem_allReads] at hr
    exact ⟨hr.1, by simpa using hr.2, rfl⟩
  · rintro ⟨reads, early, result⟩
    refine ⟨m.read, List.mem_filter.mpr ⟨(mem_allReads ..).mpr reads, by simpa using early⟩, ?_⟩
    rw [← result]

theorem firstMade_once (late : List RingRead) : MadeOnce (s.firstMade passing late) := by
  intro m hm q hq same
  obtain ⟨-, -, hm⟩ := (mem_firstMade ..).mp hm
  obtain ⟨-, -, hq⟩ := (mem_firstMade ..).mp hq
  cases m
  cases q
  simp_all

theorem readsMade_eq (reads : SampleReads) (h : reads.late ≠ []) : s.readsMade reads =
    ((reads.late.filter fun r => (s.feedReads .a ++ s.feedReads .b).contains r).eraseDups).foldl
      (s.makeLate reads.passing) (s.firstMade reads.passing reads.late) := by
  rw [State.readsMade, if_neg (by simpa using h)]
  rfl

end Made

theorem ringRead_of_mem {s : State} {passing : List Access} {made : List MadeRead} (once : MadeOnce made) {m : MadeRead}
    (h : m ∈ made) (t : Int) : s.ringRead passing made m.read t = m.result := by
  rw [State.ringRead, find_madeOnce once h]

/-- The reads of a house sample are each made once (R79). -/
theorem readsMade_once (s : State) (reads : SampleReads) : MadeOnce (s.readsMade reads) := by
  by_cases h : reads.late = []
  · rw [State.readsMade, h]
    exact nofun
  · rw [readsMade_eq s reads h]
    obtain ⟨rest, run, order⟩ := makeLates_append s reads.passing
      ((reads.late.filter fun r => (s.feedReads .a ++ s.feedReads .b).contains r).eraseDups)
      (s.firstMade reads.passing reads.late)
    rw [run]
    refine madeOnce_append (firstMade_once s reads.passing reads.late) (order ▸ nodup_eraseDups _) fun m hm => ?_
    rw [order, List.mem_eraseDups]
    exact fun late => ((mem_firstMade ..).mp hm).2.1 (List.mem_filter.mp late).1

/-- A read that is not late finds the slots as they stand (R79). -/
theorem ringRead_early {s : State} {reads : SampleReads} {r : RingRead} (h : s.Reads r) (early : r ∉ reads.late) :
    s.ringRead reads.passing (s.readsMade reads) r (s.frameOf r) =
      s.readFrame reads.passing r.feed r.channel r.tap (s.frameOf r) := by
  have made : s.makeRead reads.passing r = s.readFrame reads.passing r.feed r.channel r.tap (s.frameOf r) := by
    rw [State.makeRead, tapFrame_eq h]
  by_cases none : reads.late = []
  · rw [State.ringRead, State.readsMade, none]
    rfl
  · obtain ⟨rest, run, -⟩ := makeLates_append s reads.passing
      ((reads.late.filter fun r => (s.feedReads .a ++ s.feedReads .b).contains r).eraseDups)
      (s.firstMade reads.passing reads.late)
    have listed : (⟨r, s.makeRead reads.passing r⟩ : MadeRead) ∈ s.readsMade reads := by
      rw [readsMade_eq s reads none, run, List.mem_append]
      exact .inl ((mem_firstMade ..).mpr ⟨h, early, rfl⟩)
    rw [← made]
    exact ringRead_of_mem (readsMade_once s reads) listed _

/-- The late reads up to the first naming of one of them. -/
theorem eraseDups_split {α : Type} [DecidableEq α] {before after : List α} {r : α} (fresh : r ∉ before) :
    ∃ rest, (before ++ r :: after).eraseDups = before.eraseDups ++ r :: rest := by
  have kept : before.contains r = false := by simpa using fresh
  rw [List.eraseDups_append, List.removeAll, List.filter_cons_of_pos (by simpa using fresh), List.eraseDups_cons]
  exact ⟨_, rfl⟩

/-- A late read is made on the slots that the reads before it for other feeds and channels marked (R79). -/
theorem ringRead_late {s : State} {reads : SampleReads} {before after : List RingRead} {r : RingRead} (h : s.Reads r)
    (late : reads.late = before ++ r :: after) (fresh : r ∉ before) :
    ∃ made : List MadeRead, (∀ m ∈ made, m ∈ s.readsMade reads) ∧
      (∀ q, (∃ m ∈ made, m.read = q) ↔ s.Reads q ∧ (q ∉ reads.late ∨ q ∈ before)) ∧
      s.ringRead reads.passing (s.readsMade reads) r (s.frameOf r) =
        ((marksFound made r).foldl (fun t e => damageSlot e t) s).makeRead reads.passing r := by
  obtain ⟨asked, hasked⟩ : ∃ p : RingRead → Bool, p = fun r => (s.feedReads .a ++ s.feedReads .b).contains r := ⟨_, rfl⟩
  have isAsked (q : RingRead) : asked q = true ↔ s.Reads q := by
    rw [← mem_allReads, hasked]
    exact List.contains_iff_mem
  obtain ⟨rest, split⟩ := eraseDups_split (before := before.filter asked) (after := after.filter asked) (r := r)
    fun mem => fresh (List.mem_filter.mp mem).1
  have order : (reads.late.filter asked).eraseDups = (before.filter asked).eraseDups ++ r :: rest := by
    rw [late, List.filter_append, List.filter_cons_of_pos ((isAsked r).mpr h), split]
  obtain ⟨lates, run, names⟩ := makeLates_append s reads.passing (before.filter asked).eraseDups
    (s.firstMade reads.passing reads.late)
  obtain ⟨made, hmade⟩ : ∃ l, l = s.firstMade reads.passing reads.late ++ lates := ⟨_, rfl⟩
  obtain ⟨others, later, -⟩ := makeLates_append s reads.passing rest (s.makeLate reads.passing made r)
  have all : s.readsMade reads = s.makeLate reads.passing made r ++ others := by
    rw [readsMade_eq s reads (by rw [late]; simp), ← hasked, order, List.foldl_append, run, ← hmade, List.foldl_cons, later]
  have listed (m : MadeRead) (hm : m ∈ s.makeLate reads.passing made r) : m ∈ s.readsMade reads := by
    rw [all]
    exact List.mem_append_left _ hm
  refine ⟨made, fun m hm => listed m (List.mem_append_left _ hm), fun q => ?_, ?_⟩
  · have named : (∃ m ∈ lates, m.read = q) ↔ q ∈ before ∧ s.Reads q := by
      rw [← List.mem_map, names, List.mem_eraseDups, List.mem_filter, isAsked]
    have early : (∃ m ∈ s.firstMade reads.passing reads.late, m.read = q) ↔ s.Reads q ∧ q ∉ reads.late := by
      constructor
      · rintro ⟨m, hm, rfl⟩
        obtain ⟨reads, early, -⟩ := (mem_firstMade ..).mp hm
        exact ⟨reads, early⟩
      · rintro ⟨asks, early⟩
        exact ⟨⟨q, s.makeRead reads.passing q⟩, (mem_firstMade ..).mpr ⟨asks, early, rfl⟩, rfl⟩
    simp only [hmade, List.mem_append, or_and_right, exists_or, named, early]
    rw [and_comm (a := q ∈ before), and_or_left]
  · obtain ⟨found, hfound⟩ : ∃ v, v = ((marksFound made r).foldl (fun t e => damageSlot e t) s).makeRead reads.passing r :=
      ⟨_, rfl⟩
    have last : (⟨r, found⟩ : MadeRead) ∈ s.makeLate reads.passing made r := by
      rw [State.makeLate, ← hfound]
      exact List.mem_append_right _ (List.mem_singleton_self _)
    rw [← hfound]
    exact ringRead_of_mem (readsMade_once s reads) (listed _ last) (s.frameOf r)

/-- A slot of the ring replaced is found again at its frame. -/
theorem Feed.slotAt_setSlot {f : Feed} {frame : Nat} (held : f.slotAt frame ≠ emptySlot) (v : Slot) :
    (f.setSlot frame v).slotAt frame = v := by
  have inside : frame / 32 % f.setup.slotCount < f.ring.length := by
    by_contra out
    exact held (List.getD_eq_default _ _ (Nat.not_lt.mp out))
  show (f.ring.set _ v).getD (frame / 32 % f.setup.slotCount) emptySlot = v
  rw [List.getD_eq_getElem?_getD, List.getElem?_set_self inside]
  rfl

/-- Settles O29: the class and the value of a frame, the frame that SLIP names, the order of the reads, and what failed
reads and an underrun leave. -/
theorem frameReads : Obligations.FrameReads := by
  intro inside present away hinside hpresent haway
  have isInside (f : Feed) (t : Int) : inside f t ↔ f.Inside t := hinside f t
  have isPresent (f : Feed) (t : Int) : present f t ↔ f.Present t := by rw [hpresent, isInside, Feed.Present]
  have isAway (f : Feed) (t : Int) : away f t ↔ f.Away t := by rw [haway, isInside, isPresent, Feed.Away]
  simp only [isInside, isPresent, isAway]
  refine ⟨fun s passing x c tap t f g w fault gone hf hg hw hfault hgone => ?_, fun s x f i low high hf hi hends => ?_,
    ⟨fun s reads r h early => ringRead_early h early, mem_feedReads, fun s u reads before after r marked h late fresh hm hu => ?_,
      fun s e => ?_⟩, fun s e held => ?_, fun s x t leads missing => ?_, fun s h => ?_⟩
  · subst hf hg
    have fails (z : Side) : gone z ↔ readFails passing (.feed x) c tap (w z) = true := by
      rw [readFails_iff, hgone, Bool.forall_bool, hfault, hfault]
    have ring (z : Side) : s.readRing passing x z c tap t.toNat =
        if readFails passing (.feed x) c tap (w z) then (0, [{ ring := z, channel := c, frame := t.toNat }])
        else ((w z).sample.toInt, []) := by rw [readRing_eq, hw]
    refine ⟨readFrame_outside, fun here whole => ?_, fun here bad => ?_, fun within absent stays => ?_,
      fun within absent patch role isRead nominal channels there => ⟨fun whole => ?_, fun bad => ?_⟩⟩
    · rw [readFrame_present here, ring, if_neg (mt (fails x).mpr whole)]
    · rw [readFrame_present here, ring, if_pos ((fails x).mp bad)]
    · rw [readFrame_absent within absent, if_neg]
      rw [patches_iff]
      rintro ⟨patch, role, isRead, nominal, channels, there⟩
      obtain h | h | h | h | h | h := stays
      · simp [patch] at h
      · exact role.elim h.1 h.2
      · simp [isRead] at h
      · exact h nominal
      · exact h channels
      · exact h there
    · rw [readFrame_absent within absent, if_pos ((patches_iff ..).mpr ⟨patch, role, isRead, nominal, channels, there⟩), ring,
        if_neg (mt (fails _).mpr whole)]
    · rw [readFrame_absent within absent, if_pos ((patches_iff ..).mpr ⟨patch, role, isRead, nominal, channels, there⟩), ring,
        if_pos ((fails _).mp bad)]
  · subst hf
    have notArrived (u : Int) : ((s.feed x).classify u == .notArrived) = true ↔ (s.feed x).Away u := by
      rw [beq_iff_eq, Feed.classify_notArrived]
    obtain ⟨n, window, reach⟩ : ∃ n : Nat, (s.feed x).window s.clock.rateClass = (List.range n).map (fun k : Nat => low + k) ∧
        high + 1 = low + n := by
      have two := Setup.isDouble_iff (s.feed x).setup s.clock.rateClass
      unfold Feed.window
      split at hends
      next double =>
        obtain ⟨rfl, rfl⟩ := Prod.mk.inj hends
        exact ⟨10, by rw [if_pos (two.mpr double), hi], by omega⟩
      next single =>
        obtain ⟨rfl, rfl⟩ := Prod.mk.inj hends
        exact ⟨4, by rw [if_neg (mt two.mp single), hi], by omega⟩
    rw [State.missingFrame, window]
    refine ⟨fun t => ?_, ?_⟩
    · rw [find_stretch, notArrived]
      simp only [← Bool.not_eq_true, notArrived]
      have edge : t < low + n ↔ t ≤ high := by omega
      rw [edge]
    · rw [find_stretch_none]
      simp only [← Bool.not_eq_true, notArrived]
      exact forall₂_congr fun t _ => by rw [show t < low + n ↔ t ≤ high by omega]
  · obtain ⟨made, listed, names, read⟩ := ringRead_late h late fresh
    have result (m : MadeRead) (hm : m ∈ made) (t : Int) :
        s.ringRead reads.passing (s.readsMade reads) m.read t = m.result :=
      ringRead_of_mem (readsMade_once s reads) (listed m hm) t
    have same : ∀ e, e ∈ marksFound made r ↔ e ∈ marked := by
      intro e
      rw [hm, marksFound, List.mem_flatMap, List.mem_flatMap]
      constructor
      · rintro ⟨m, hm, failed⟩
        obtain ⟨hm, other⟩ := List.mem_filter.mp hm
        obtain ⟨asks, before⟩ := (names m.read).mp ⟨m, hm, rfl⟩
        refine ⟨m.read, List.mem_filter.mpr ⟨(mem_allReads ..).mpr asks, ?_⟩, by rw [result m hm]; exact failed⟩
        rw [Bool.and_eq_true]
        exact ⟨by simpa using before, other⟩
      · rintro ⟨q, hq, failed⟩
        obtain ⟨asks, cond⟩ := List.mem_filter.mp hq
        rw [Bool.and_eq_true] at cond
        obtain ⟨m, hm, rfl⟩ := (names q).mpr ⟨(mem_allReads ..).mp asks, by simpa using cond.1⟩
        rw [result m hm] at failed
        exact ⟨m, List.mem_filter.mpr ⟨hm, cond.2⟩, failed⟩
    rw [read, damageSlots_congr s same, ← hu, State.makeRead, ← tapFrame_eq h, hu, damageSlots_eq]
    cases r.feed <;> rfl
  · rfl
  · refine ⟨?_, ?_⟩
    · rw [markFail, be_one, be_one]
      rfl
    · have marked : (markFail e s).feed e.ring =
          (s.feed e.ring).setSlot e.frame { (s.feed e.ring).slotAt e.frame with state := .damaged } := by
        rw [markFail, State.feed_raise, damageSlot_feed, if_pos rfl]
      rw [marked, Feed.slotAt_setSlot held]
      exact ⟨rfl, rfl⟩
  · refine ⟨fun isRead fresh there => ?_, fun h => ?_⟩
    · rw [noteUnderrun, leads]
      dsimp only
      rw [missing]
      dsimp only
      rw [if_pos (by simp [isRead, fresh, there]), be_one, be_one]
      rfl
    · rw [noteUnderrun, leads]
      dsimp only
      rw [missing]
      dsimp only
      rw [if_neg (by obtain h | h := h <;> simp [h])]
  · rw [noteUnderrun]
    obtain silent | ⟨x, leads, whole⟩ := h
    · rw [silent]
      rfl
    · rw [leads]
      dsimp only
      rw [whole]

end Sys2Proof.Machine
end

section
/-!
O14 to O16: the lane receivers and the placement of lane blocks. What a placement does is said once: a feed's part
(`Feed.slotted`, `Feed.unskewed`, `Feed.afterBlock`), the notices and the sample words.
-/

namespace Sys2Proof.Machine

open Sys2Proof

/-! ## Notices and feeds apart -/

theorem raise_setFeed (k : Kind) (d : List Byte) (s : State) (x : Side) (f : Feed) :
    raise k d (s.setFeed x f) = (raise k d s).setFeed x f := by
  cases x <;> rfl

theorem raiseIf_setFeed (c : Bool) (k : Kind) (d : List Byte) (s : State) (x : Side) (f : Feed) :
    raiseIf c k d (s.setFeed x f) = (raiseIf c k d s).setFeed x f := by
  cases x <;> rfl

theorem State.onFeed_setFeed (s : State) (x : Side) (f : Feed) (g : Feed → Feed) :
    (s.setFeed x f).onFeed x g = s.setFeed x (g f) := by
  cases x <;> rfl

/-! ## The pace state of a block that begins and of one that ends (R26, R28) -/

/-- The pace state after a block began on a lane. -/
def Setup.paceFrom (u : Setup) (l : Lane) (p : Pace) : Pace :=
  if p.isOpen then { p with begun := p.begun.add l, isOpen := u.mode == .single || !u.coveredBy (p.begun.add l) } else p

/-- The pace state after a block ended on a lane. -/
def Setup.paceAfter (u : Setup) (l : Lane) (p : Pace) : Pace :=
  if p.begun.get l = false ∨ u.mode = .streaming then p
  else if u.mode = .single then
    if p.isOpen then { p with ended := p.ended.add l, isOpen := !u.coveredBy (p.ended.add l) } else p
  else if p.isOpen = false ∧ p.line = true ∧ u.coveredBy (p.ended.add l) = true then
    { p with isOpen := true, try2 := false, window := 0, begun := noLanes, ended := noLanes }
  else { p with ended := p.ended.add l }

theorem Feed.paceBegun_eq (f : Feed) (l : Lane) : f.paceBegun l = { f with pace := f.setup.paceFrom l f.pace } := by
  unfold Feed.paceBegun Setup.paceFrom
  split <;> rfl

theorem Feed.paceEnded_eq (f : Feed) (l : Lane) : f.paceEnded l = { f with pace := f.setup.paceAfter l f.pace } := by
  unfold Feed.paceEnded Setup.paceAfter
  cases begun : f.pace.begun.get l
  · simp
  · cases mode : f.setup.mode
    case streaming => simp
    case single =>
      simp only [if_true]
      split <;> rfl
    case burst =>
      have merged : (!f.pace.isOpen && f.setup.coveredBy (f.pace.ended.add l) && f.pace.line) = true ↔
          f.pace.isOpen = false ∧ f.pace.line = true ∧ f.setup.coveredBy (f.pace.ended.add l) = true := by
        simp only [Bool.and_eq_true, Bool.not_eq_true']
        tauto
      simp only [merged, if_true]
      split <;> simp

/-- A lane set that holds every used lane, written out (R14). -/
theorem Setup.coveredBy_eq (u : Setup) (v : LaneSet) : u.coveredBy v = (v.l0 && (v.l1 || u.lanes != 2)) := by
  rw [Bool.eq_iff_iff, Setup.coveredBy_iff]
  simp only [Bool.and_eq_true, Bool.or_eq_true, bne_iff_ne, ne_eq]
  tauto

/-! ## A placement, said once (R17 to R22, R28, R29, R52) -/

/-- The feed with the block's slot entered: at or beyond the head (R19), or as a second half below it (R20). -/
def Feed.slotted (f : Feed) (l : Lane) (t : Nat) (valid : Bool) : Feed :=
  if f.h ≤ t then { (f.openGap t).setSlot t (newSlot f.setup l t valid) with h := t + 32 }
  else f.setSlot t ((f.slotAt t).joined l valid)

/-- One slot damaged (R21). -/
def Feed.spoilt (f : Feed) (q : Nat) : Feed := f.setSlot q { f.slotAt q with state := .damaged }

/-- The feed after the skew rule (R21). -/
def Feed.unskewed (f : Feed) (l : Lane) (t : Nat) : Feed :=
  if f.setup.lanes = 2 then (f.skewed l t).foldl Feed.spoilt f else f

/-- The feed's ring, head and last accepted stamp after a placement. -/
def Feed.ringed (f : Feed) (l : Lane) (t : Nat) (valid : Bool) : Feed :=
  ((f.slotted l t valid).setLast l (some t)).unskewed l t

/-- The feed after a placement: `ended` is the block's END flag. -/
def Feed.afterBlock (f : Feed) (l : Lane) (t : Nat) (valid ended starting : Bool) : Feed :=
  let g := if valid && ended then (f.ringed l t valid).markEnd t else f.ringed l t valid
  (if valid && !f.intakeEnded then g.goodBlock l else g).primes.paceSettled f.fill starting

/-- The notices of the slot: a gap or a skipped half, then the check word. -/
def toldSlot (x : Side) (f : Feed) (t : Nat) (valid : Bool) (s : State) : State :=
  raiseIf (!valid) .damage (blockDetail x 0 t)
    (if f.h ≤ t then raiseIf (decide (f.h < t)) .damage (blockDetail x 1 f.h) s
     else raiseIf (valid && (f.slotAt t).state == .missing) .damage (blockDetail x 2 t) s)

/-- The notices of the skew rule. -/
def toldSkew (x : Side) (late : List Nat) (s : State) : State :=
  late.foldl (fun s q => raise .damage (blockDetail x 3 q) s) s

/-- The stamps that the skew rule damages at a placement. -/
def Feed.late (f : Feed) (l : Lane) (t : Nat) (valid : Bool) : List Nat :=
  if f.setup.lanes = 2 then ((f.slotted l t valid).setLast l (some t)).skewed l t else []

theorem placeSlot_eq (x : Side) (l : Lane) (t : Nat) (valid : Bool) (s : State) :
    placeSlot x l t valid s = (toldSlot x (s.feed x) t valid s).setFeed x ((s.feed x).slotted l t valid) := by
  unfold placeSlot toldSlot Feed.slotted
  dsimp only
  split
  · rw [raiseIf_setFeed, raiseIf_setFeed]
  · rw [raiseIf_setFeed, raiseIf_setFeed]

/-- The skew rule's work on a state whose feed is `f`. -/
theorem skewFold_eq (x : Side) (late : List Nat) (s : State) (f : Feed) :
    late.foldl (fun s t => raise .damage (blockDetail x 3 t)
        (s.onFeed x fun f => f.setSlot t { f.slotAt t with state := .damaged })) (s.setFeed x f) =
      (toldSkew x late s).setFeed x (late.foldl Feed.spoilt f) := by
  induction late generalizing s f with
  | nil => rfl
  | cons q late ih =>
    have one : raise .damage (blockDetail x 3 q)
        ((s.setFeed x f).onFeed x fun f => f.setSlot q { f.slotAt q with state := .damaged }) =
          (raise .damage (blockDetail x 3 q) s).setFeed x (f.spoilt q) := by
      rw [State.onFeed_setFeed, raise_setFeed]
      rfl
    rw [List.foldl_cons, one, ih]
    rfl

theorem skewCheck_eq (x : Side) (l : Lane) (t : Nat) (s : State) (f : Feed) :
    skewCheck x l t (s.setFeed x f) =
      (toldSkew x (if f.setup.lanes = 2 then f.skewed l t else []) s).setFeed x (f.unskewed l t) := by
  unfold skewCheck Feed.unskewed
  rw [State.feed_setFeed_self]
  split
  · exact skewFold_eq ..
  · rfl

theorem Feed.slotted_kept (f : Feed) (l : Lane) (t : Nat) (valid : Bool) :
    { f.slotted l t valid with ring := f.ring, h := f.h } = f ∧ (f.slotted l t valid).ring.length = f.ring.length := by
  unfold Feed.slotted
  split
  · obtain ⟨same, len⟩ := f.openGap_kept t
    refine ⟨?_, (List.length_set ..).trans len⟩
    have headed := congrArg (fun g : Feed => { g with h := f.h }) same
    exact headed
  · exact ⟨rfl, List.length_set ..⟩

theorem Feed.slotted_setup (f : Feed) (l : Lane) (t : Nat) (valid : Bool) : (f.slotted l t valid).setup = f.setup := by
  have same := congrArg Feed.setup (f.slotted_kept l t valid).1
  exact same

@[simp] theorem Feed.setLast_setup (f : Feed) (l : Lane) (v : Option Nat) : (f.setLast l v).setup = f.setup := by
  cases l <;> rfl

/-- A placement: its notices, its sample words and the feed (R16 to R22). -/
theorem placed_eq (x : Side) (l : Lane) (t : Nat) (valid ended : Bool) (samples : List Byte) (s : State) :
    placed x l t valid ended samples s =
      (toldSkew x ((s.feed x).late l t valid)
        (toldSlot x (s.feed x) t valid (if valid then s.withSamples x l t samples else s))).setFeed x
          ((s.feed x).afterBlock l t valid ended s.starting) := by
  have feed : (if valid then s.withSamples x l t samples else s).feed x = s.feed x := by
    split <;> cases x <;> rfl
  unfold placed
  dsimp only
  rw [placeSlot_eq, feed, State.onFeed_setFeed, skewCheck_eq, State.onFeed_setFeed]
  rw [Feed.setLast_setup, Feed.slotted_setup]
  rfl

/-! ## Setups stay under the bytes of a lane -/

theorem toldSkew_feed (x y : Side) (late : List Nat) (s : State) : (toldSkew x late s).feed y = s.feed y := by
  induction late generalizing s with
  | nil => rfl
  | cons q late ih => exact (ih _).trans (State.feed_raise ..)

theorem toldSlot_feed (x y : Side) (f : Feed) (t : Nat) (valid : Bool) (s : State) :
    (toldSlot x f t valid s).feed y = s.feed y := by
  unfold toldSlot
  split <;> simp only [State.feed_raiseIf]

theorem State.feed_withSamples (s : State) (x y : Side) (l : Lane) (t : Nat) (samples : List Byte) :
    (s.withSamples x l t samples).feed y = s.feed y := by
  cases y <;> rfl

theorem Feed.spoilt_kept (late : List Nat) (f : Feed) :
    { late.foldl Feed.spoilt f with ring := f.ring } = f ∧ (late.foldl Feed.spoilt f).ring.length = f.ring.length := by
  induction late generalizing f with
  | nil => exact ⟨rfl, rfl⟩
  | cons q late ih =>
    obtain ⟨same, len⟩ := ih (f.spoilt q)
    refine ⟨?_, len.trans (List.length_set ..)⟩
    have ringed := congrArg (fun g : Feed => { g with ring := f.ring }) same
    exact ringed

theorem Feed.unskewed_kept (f : Feed) (l : Lane) (t : Nat) :
    { f.unskewed l t with ring := f.ring } = f ∧ (f.unskewed l t).ring.length = f.ring.length := by
  unfold Feed.unskewed
  split
  · exact Feed.spoilt_kept ..
  · exact ⟨rfl, rfl⟩

/-- What a placement leaves of the feed but its ring, head and last accepted stamp. -/
theorem Feed.ringed_kept (f : Feed) (l : Lane) (t : Nat) (valid : Bool) :
    { f.ringed l t valid with ring := f.ring, h := f.h } = f.setLast l (some t) ∧
      (f.ringed l t valid).h = (f.slotted l t valid).h ∧ (f.ringed l t valid).ring.length = f.ring.length := by
  obtain ⟨slot, slots⟩ := f.slotted_kept l t valid
  obtain ⟨skew, skews⟩ := ((f.slotted l t valid).setLast l (some t)).unskewed_kept l t
  have lasts (g : Feed) : (g.setLast l (some t)).h = g.h ∧ (g.setLast l (some t)).ring = g.ring := by
    cases l <;> exact ⟨rfl, rfl⟩
  refine ⟨?_, (congrArg Feed.h skew).trans (lasts _).1, skews.trans ((congrArg List.length (lasts _).2).trans slots)⟩
  have inner := congrArg (fun g : Feed => g.setLast l (some t)) slot
  have outer := congrArg (fun g : Feed => { g with ring := f.ring, h := f.h }) skew
  refine Eq.trans outer (Eq.trans ?_ inner)
  cases l <;> rfl

theorem Feed.ringed_setup (f : Feed) (l : Lane) (t : Nat) (valid : Bool) : (f.ringed l t valid).setup = f.setup := by
  have same := congrArg Feed.setup (f.ringed_kept l t valid).1
  exact same.trans (Feed.setLast_setup ..)

theorem Feed.afterBlock_setup (f : Feed) (l : Lane) (t : Nat) (valid ended starting : Bool) :
    (f.afterBlock l t valid ended starting).setup = f.setup := by
  refine Eq.trans ?_ (f.ringed_setup l t valid)
  unfold Feed.afterBlock
  dsimp only
  split <;> split <;> rfl

theorem placed_setup (x y : Side) (l : Lane) (t : Nat) (valid ended : Bool) (samples : List Byte) (s : State) :
    ((placed x l t valid ended samples s).feed y).setup = (s.feed y).setup := by
  rw [placed_eq, State.feed_setFeed]
  split
  next same => rw [Feed.afterBlock_setup, same]
  · rw [toldSkew_feed, toldSlot_feed]
    split
    · rw [State.feed_withSamples]
    · rfl

theorem judgeBlock_setup (x y : Side) (l : Lane) (v : LaneHeader) (body : List Byte) (s : State) :
    ((judgeBlock x l v body s).feed y).setup = (s.feed y).setup := by
  unfold judgeBlock
  dsimp only
  split
  · rfl
  · split
    · split
      · split
        · rfl
        · rw [State.feed_raise]
        · split
          · exact placed_setup ..
          · rfl
      · rfl
    · split
      · exact placed_setup ..
      · rfl

theorem laneArrived_setup (x y : Side) (l : Lane) (v : LaneHeader) (body : List Byte) (s : State) :
    ((laneArrived x l v body s).feed y).setup = (s.feed y).setup := by
  have ended (u : State) : ((u.onFeed x fun f => f.paceEnded l).feed y).setup = (u.feed y).setup := by
    rw [State.feed_onFeed]
    split
    next same => rw [Feed.paceEnded_eq, same]
    · rfl
  have hunts : ((s.onFeed x fun f => f.setRx l .hunting).feed y).setup = (s.feed y).setup := by
    rw [State.feed_onFeed]
    split
    next same => rw [Feed.setRx_setup, same]
    · rfl
  have caught (u : State) : ((caughtUp u).feed y).setup = (u.feed y).setup :=
    congrArg Prod.fst (congrFun (caughtUp_rings u) y)
  unfold laneArrived
  rw [ended, judgeBlock_setup, caught, hunts]

/-- A byte leaves the setups alone. -/
theorem laneByte_setup (x y : Side) (l : Lane) (b : Byte) (s : State) :
    ((laneByte x l b s).feed y).setup = (s.feed y).setup := by
  have units (g : Feed → Feed) (hg : ∀ f, (g f).setup = f.setup) : ((s.onFeed x g).feed y).setup = (s.feed y).setup := by
    rw [State.feed_onFeed]
    split
    next same => rw [hg, same]
    · rfl
  unfold laneByte
  split
  · split
    · exact units _ fun f => f.setRx_setup ..
    · rfl
  · split
    · exact units _ fun f => by rw [Feed.paceBegun_eq]; exact f.setRx_setup ..
    · split
      · rfl
      · exact units _ fun f => f.setRx_setup ..
  · split
    · exact units _ fun f => f.setRx_setup ..
    · unfold laneHeaded
      split
      · exact units _ fun f => by rw [Feed.paceEnded_eq]; exact f.setRx_setup ..
      · exact units _ fun f => f.setRx_setup ..
  · split
    · exact units _ fun f => f.setRx_setup ..
    · exact laneArrived_setup ..

theorem laneBytes_setup (x y : Side) (l : Lane) (bs : List Byte) (s : State) :
    ((laneBytes x l bs s).feed y).setup = (s.feed y).setup := by
  induction bs generalizing s with
  | nil => rfl
  | cons b bs ih => rw [laneBytes_cons, ih, laneByte_setup]

/-- A byte leaves the RESET line alone. -/
theorem laneByte_resetLine (x : Side) (l : Lane) (b : Byte) (s : State) : (laneByte x l b s).resetLine = s.resetLine := by
  unfold laneByte
  split
  · split <;> rfl
  · split
    · rfl
    · split <;> rfl
  · split
    · rfl
    · unfold laneHeaded
      split <;> rfl
  · split
    · rfl
    · unfold laneArrived
      obtain ⟨m, -, same⟩ := judgeBlock_outside x l _ _ (caughtUp (s.onFeed x fun f => f.setRx l .hunting))
      have judged := State.resetLine_of_outside same
      have caught := State.resetLine_of_outside (caughtUp_outside (s.onFeed x fun f => f.setRx l .hunting))
      exact judged.trans caught

theorem laneBytes_resetLine (x : Side) (l : Lane) (bs : List Byte) (s : State) :
    (laneBytes x l bs s).resetLine = s.resetLine := by
  induction bs generalizing s with
  | nil => rfl
  | cons b bs ih => rw [laneBytes_cons, ih, laneByte_resetLine]

/-! ## O14 -/

/-- A lane that receives no byte: the RESET line is asserted, or the setup leaves the lane unused (R13, R14). -/
theorem laneArrive_deaf {s : State} {x : Side} {l : Lane} (h : s.resetLine = true ∨ l = .l1 ∧ (s.feed x).setup.lanes ≠ 2)
    (bytes : List Byte) : laneArrive x l bytes s = s := by
  refine if_pos ?_
  obtain line | ⟨rfl, lanes⟩ := h
  · simp [line]
  · simp [Setup.uses, lanes]

theorem laneArrive_hears {s : State} {x : Side} {l : Lane} (line : s.resetLine = false)
    (used : l = .l1 → (s.feed x).setup.lanes = 2) (bytes : List Byte) : laneArrive x l bytes s = laneBytes x l bytes s := by
  refine if_neg ?_
  cases l
  · simp [line, Setup.uses]
  · simp [line, Setup.uses, used rfl]

/-- Either a lane receives nothing or it receives every byte. -/
theorem laneArrive_hears_or (s : State) (x : Side) (l : Lane) :
    (∀ bytes, laneArrive x l bytes s = s) ∨ s.resetLine = false ∧ (l = .l1 → (s.feed x).setup.lanes = 2) := by
  cases line : s.resetLine
  · by_cases used : l = .l1 → (s.feed x).setup.lanes = 2
    · exact .inr ⟨rfl, used⟩
    · exact .inl (laneArrive_deaf (.inr (Classical.not_imp.mp used)))
  · exact .inl (laneArrive_deaf (.inl line))

/-- The bytes of two stretches, one stretch after the other. -/
theorem laneArrive_append (x : Side) (l : Lane) (p q : List Byte) (s : State) :
    laneArrive x l (p ++ q) s = laneArrive x l q (laneArrive x l p s) := by
  obtain deaf | ⟨line, used⟩ := laneArrive_hears_or s x l
  · rw [deaf, deaf, deaf]
  · rw [laneArrive_hears line used, laneArrive_hears line used, laneBytes_append]
    refine (laneArrive_hears ((laneBytes_resetLine ..).trans line) (fun two => ?_) q).symm
    rw [laneBytes_setup]
    exact used two

/-- The sync word, on a receiver that hunts (R15, R188). -/
theorem laneBytes_sync {x : Side} {l : Lane} {s : State} (h : ((s.feed x).rx l).hunts = true) :
    laneBytes x l [0x6B, 0xD2] s = s.onFeed x fun f => (f.setRx l (.heading [] 0)).paceBegun l := by
  have half : laneByte x l 0x6B s = s.onFeed x fun f => f.setRx l .halfSync := by
    unfold laneByte
    cases r : (s.feed x).rx l with
    | hunting => exact if_pos rfl
    | halfSync =>
      refine Eq.symm (State.onFeed_of_eq _ _ _ ?_)
      rw [← r, Feed.setRx_rx]
    | heading got k => rw [r] at h; cases h
    | receiving v b d k => rw [r] at h; cases h
  rw [laneBytes_cons, half, laneBytes_cons, laneBytes_nil]
  unfold laneByte
  simp

/-- The sync word and a part of a header. -/
theorem laneBytes_begun {x : Side} {l : Lane} {s : State} (h : ((s.feed x).rx l).hunts = true) {got : List Byte}
    (short : got.length < 8) : laneBytes x l ([0x6B, 0xD2] ++ got) s =
      s.onFeed x fun f => (f.setRx l (.heading got 0)).paceBegun l := by
  rw [laneBytes_append, laneBytes_sync h, laneBytes_heading x l got _ [] (by simp) (by simpa using Nat.le_of_lt_succ short)]
  simp [Feed.setRx_paceBegun]

/-- A receiver that is neither hunting nor holds half a sync word has begun a block. -/
theorem Receiver.hunts_iff (r : Receiver) : r.hunts = true ↔ r = .hunting ∨ r = .halfSync := by
  cases r <;> simp [Receiver.hunts]

theorem Receiver.not_hunts_iff (r : Receiver) : r.hunts = false ↔ r ≠ .hunting ∧ r ≠ .halfSync := by
  cases r <;> simp [Receiver.hunts]

/-- A part-received block, stale after two block events without a byte (R15). -/
theorem Receiver.stale_iff {r : Receiver} {v : LaneHeader} {body got : List Byte} {due silent : Nat}
    (h : r = .receiving v body due silent ∨ r = .heading got silent) : r.stale = true ↔ 2 ≤ silent := by
  obtain rfl | rfl := h <;> exact decide_eq_true_iff

/-- Settles O14: a lane receiver byte by byte, by the equations of the sync word, of a header and of the bytes due. -/
theorem laneReceiver : Obligations.LaneReceiver := by
  intro full ended hfull hended
  have covered (f : Feed) (v : LaneSet) : full f v = f.setup.coveredBy v :=
    (hfull f v).trans (f.setup.coveredBy_eq v).symm
  have after (f : Feed) (l : Lane) (p : Pace) : ended f l p = f.setup.paceAfter l p := by
    rw [hended, covered]
    rfl
  refine ⟨?_, ?_, ?_, ?_, ?_, ?_⟩
  · intro s x l v begun line used hunting hbegun
    have hunts := (Receiver.hunts_iff _).mpr hunting
    have from_ : begun = (s.feed x).setup.paceFrom l (s.feed x).pace := by
      rw [hbegun, covered]
      rfl
    have row : laneBegin x l v s = laneArrive x l (headerBytes v) s := if_pos hunts
    refine ⟨congrArg Host.Outcome.next ?_, congrArg Host.Outcome.next row.symm, fun got short => ?_⟩
    · rw [row, laneArrive_hears line used, laneBytes_header x l v s hunts, from_, after]
      split
      · refine congrArg (s.setFeed x) ?_
        simp [Feed.paceEnded_eq, Feed.paceBegun_eq]
      · refine congrArg (s.setFeed x) ?_
        simp [Feed.paceBegun_eq, bodyLen]
    · refine congrArg Host.Outcome.next ?_
      rw [laneArrive_hears line used, laneBytes_begun hunts short, from_]
      refine congrArg (s.setFeed x) ?_
      simp [Feed.paceBegun_eq]
  · intro s x l v h
    refine congrArg Host.Outcome.next ?_
    rw [laneBegin]
    split
    next hunts =>
      refine laneArrive_deaf ?_ _
      obtain line | unused | begun := h
      · exact .inl line
      · exact .inr unused
      · rw [(Receiver.not_hunts_iff _).mpr begun] at hunts
        cases hunts
    · rfl
  · intro s x l v body bytes due silent line used rx some_ short
    refine congrArg Host.Outcome.next ?_
    rw [laneArrive_hears line used, laneBytes_short x l bytes s v body due silent rx (List.ne_nil_of_length_pos some_) short]
    rfl
  · intro s x l bytes h
    refine congrArg Host.Outcome.next ?_
    obtain line | unused | rfl | ⟨hunting, none_⟩ := h
    · exact laneArrive_deaf (.inl line) _
    · exact laneArrive_deaf (.inr unused) _
    · exact ite_self _
    · rw [laneArrive, laneBytes_hunting x l bytes s hunting none_]
      exact ite_self _
  · intro s u x l p q h
    cases h
    exact congrArg Host.Outcome.next (laneArrive_append ..)
  · intro s x l v body got due silent line h
    have stale := Receiver.stale_iff h
    refine ⟨fun fresh => congrArg Host.Outcome.next (if_neg ?_), fun old => congrArg Host.Outcome.next ?_⟩
    · rw [line, Bool.not_false, Bool.true_and, stale]
      omega
    · rw [laneAbandon, line, stale.mpr old, after]
      refine congrArg (s.setFeed x) ?_
      simp [Feed.paceEnded_eq]

/-! ## The tests of a block that has arrived (R16, R18) -/

/-- Is the stamp too low, too old or beyond the source end (R18, tests 1 to 3)? -/
def Feed.Outlying (f : Feed) (t : Nat) : Prop := t < f.s0 ∨ t + 39 < f.rs.i ∨ ∃ e, f.sourceEnd = some e ∧ e < t

theorem Feed.stampTest_outlying {f : Feed} {t : Nat} (h : f.Outlying t) : f.stampTest t = .discard := by
  unfold Feed.stampTest
  obtain below | old | ⟨e, he, beyond⟩ := h
  · exact if_pos below
  · rw [if_pos (c := t + 31 + 8 < f.rs.i) (by omega), ite_self]
  · simp [he, beyond]

theorem Feed.not_outlying {f : Feed} {t : Nat} (first : f.s0 ≤ t) (young : f.rs.i ≤ t + 39)
    (within : ∀ e, f.sourceEnd = some e → t ≤ e) : ¬ f.Outlying t := by
  rintro (below | old | ⟨e, he, beyond⟩)
  · omega
  · omega
  · have := within e he
    omega

/-- The last test (R18): beyond the ring, or over a slot that is still needed. -/
theorem Feed.stampTest_within {f : Feed} {t : Nat} (h : ¬ f.Outlying t) : f.stampTest t =
    if f.h ≤ t ∧ (f.rs.i + f.setup.depth ≤ t ∨ f.reusable (f.slotAt t) = false) then .overrun else .place := by
  unfold Feed.Outlying at h
  obtain ⟨first, young, within⟩ : ¬ t < f.s0 ∧ ¬ t + 39 < f.rs.i ∧ ¬ ∃ e, f.sourceEnd = some e ∧ e < t := by
    simpa only [not_or] using h
  unfold Feed.stampTest
  rw [if_neg first, if_neg (by omega)]
  refine if_neg fun beyond => within ?_
  cases source : f.sourceEnd with
  | none => simp [source] at beyond
  | some e => exact ⟨e, rfl, by simpa [source] using beyond⟩

theorem Feed.reusable_eq_false {f : Feed} {v : Slot} :
    f.reusable v = false ↔ ∃ q, v.stamp = some q ∧ f.rs.i ≤ q + 39 := by
  unfold Feed.reusable
  cases v.stamp <;> simp

theorem Feed.stampFresh_iff {f : Feed} {l : Lane} {t : Nat} :
    f.stampFresh l t = true ↔ t % 32 = 0 ∧ ∀ p, f.last l = some p → p < t := by
  unfold Feed.stampFresh
  cases f.last l <;> simp

/-- Where no block is judged: the feed is not in play or not placed, or the part is starting (R16). -/
theorem judgeBlock_closed {s : State} {x : Side}
    (h : (s.feed x).inPlay = false ∨ s.starting = true ∨ s.placed x = false) (l : Lane) (v : LaneHeader)
    (body : List Byte) : judgeBlock x l v body s = s := by
  unfold judgeBlock
  refine if_pos ?_
  obtain h | h | h := h <;> simp [h]

section Judged

variable {s : State} {x : Side} {l : Lane} {v : LaneHeader} {body : List Byte}

/-- What judging amounts to where it happens. -/
theorem judgeBlock_open (play : (s.feed x).inPlay = true) (run : s.starting = false) (put : s.placed x = true) :
    judgeBlock x l v body s =
      if checkRight v body = true then
        if v.laneNo.toNat = l.code ∧ v.count.toNat = (s.feed x).setup.laneCount l ∧
            (s.feed x).stampFresh l v.stamp.toNat = true then
          if (s.feed x).stampTest v.stamp.toNat = .overrun then raise .slip (blockDetail x 0 v.stamp.toNat) s
          else if (s.feed x).stampTest v.stamp.toNat = .place ∧ (s.feed x).findsSlot v.stamp.toNat = true then
            placed x l v.stamp.toNat true (v.flags.getLsbD 0) (body.take (96 * v.count.toNat)) s
          else s
        else s
      else if (s.feed x).stampFresh l v.stamp.toNat = true ∧ (s.feed x).stampTest v.stamp.toNat = .place ∧
          (s.feed x).findsSlot v.stamp.toNat = true then
        placed x l v.stamp.toNat false false [] s
      else s := by
  unfold judgeBlock
  simp only [play, run, put, Bool.not_true, Bool.or_self, Bool.false_eq_true, if_false, Bool.and_eq_true, beq_iff_eq,
    and_assoc]
  cases (s.feed x).stampTest v.stamp.toNat <;> simp

/-- A stale or misplaced stamp (R16, tests 3 and 4; R18, tests 1 to 3). -/
theorem judgeBlock_discarded
    (h : (s.feed x).stampFresh l v.stamp.toNat = false ∨ (s.feed x).Outlying v.stamp.toNat) :
    judgeBlock x l v body s = s := by
  obtain rest | ⟨play, run, put⟩ : ((s.feed x).inPlay = false ∨ s.starting = true ∨ s.placed x = false) ∨
      (s.feed x).inPlay = true ∧ s.starting = false ∧ s.placed x = true := by
    cases (s.feed x).inPlay <;> cases s.starting <;> cases s.placed x <;> simp
  · exact judgeBlock_closed rest ..
  · rw [judgeBlock_open play run put]
    obtain old | out := h
    · simp [old]
    · simp [Feed.stampTest_outlying out]

/-- A wrong lane or channel count under a right check word (R16, tests 1 and 2). -/
theorem judgeBlock_mismatched (right : checkRight v body = true)
    (h : v.laneNo.toNat ≠ l.code ∨ v.count.toNat ≠ (s.feed x).setup.laneCount l) : judgeBlock x l v body s = s := by
  obtain rest | ⟨play, run, put⟩ : ((s.feed x).inPlay = false ∨ s.starting = true ∨ s.placed x = false) ∨
      (s.feed x).inPlay = true ∧ s.starting = false ∧ s.placed x = true := by
    cases (s.feed x).inPlay <;> cases s.starting <;> cases s.placed x <;> simp
  · exact judgeBlock_closed rest ..
  · rw [judgeBlock_open play run put, if_pos right]
    refine if_neg ?_
    rintro ⟨lane, count, -⟩
    exact h.elim (· lane) (· count)

end Judged

/-! ## A block whose last byte arrives -/

theorem Feed.setRx_inPlay (f : Feed) (l : Lane) (r : Receiver) : (f.setRx l r).inPlay = f.inPlay := by cases l <;> rfl

theorem Feed.setRx_stampFresh (f : Feed) (l k : Lane) (r : Receiver) (t : Nat) :
    (f.setRx l r).stampFresh k t = f.stampFresh k t := by cases l <;> cases k <;> rfl

theorem Feed.setRx_outlying (f : Feed) (l : Lane) (r : Receiver) (t : Nat) :
    (f.setRx l r).Outlying t ↔ f.Outlying t := by cases l <;> rfl

theorem Feed.setRx_stampTest (f : Feed) (l : Lane) (r : Receiver) (t : Nat) :
    (f.setRx l r).stampTest t = f.stampTest t := by cases l <;> rfl

theorem Feed.setRx_findsSlot (f : Feed) (l : Lane) (r : Receiver) (t : Nat) :
    (f.setRx l r).findsSlot t = f.findsSlot t := by cases l <;> rfl

theorem State.setRx_placed (s : State) (x : Side) (l : Lane) (r : Receiver) :
    (s.setFeed x ((s.feed x).setRx l r)).placed x = s.placed x := by
  cases x <;> cases l <;> rfl

theorem State.setFeed_starting (s : State) (x : Side) (f : Feed) : (s.setFeed x f).starting = s.starting := by
  cases x <;> rfl

/-- The last byte of a block, with no transition over: the receiver hunts, the block is judged and has ended (R15,
R16). -/
theorem laneArrive_whole {s : State} {x : Side} {l : Lane} {v : LaneHeader} {body bytes : List Byte} {silent : Nat}
    (line : s.resetLine = false) (used : l = .l1 → (s.feed x).setup.lanes = 2)
    (rx : (s.feed x).rx l = .receiving v body bytes.length silent) (some_ : 0 < bytes.length)
    (quiet : s.sel.over = false) : laneArrive x l bytes s =
      (judgeBlock x l v (body ++ bytes) (s.setFeed x ((s.feed x).setRx l .hunting))).onFeed x fun f => f.paceEnded l := by
  have still : (s.onFeed x fun f => f.setRx l .hunting).sel.over = false := by cases x <;> exact quiet
  rw [laneArrive_hears line used, laneBytes_whole x l bytes s v body silent rx (List.ne_nil_of_length_pos some_),
    laneArrived, caughtUp_of_quiet still]
  rfl

theorem blockDetail_eq (x : Side) (cause t : Nat) :
    blockDetail x cause t = [BitVec.ofNat 8 x.code, BitVec.ofNat 8 cause] ++ be 2 (t / 32 % 65536) := by
  rw [blockDetail, be_one, be_one]
  rfl

/-! ## O15 -/

/-- Settles O15: a block that fails a test leaves the receiver hunting and its lane ended, an overrun raises SLIP
besides. -/
theorem laneBlockDiscarded : Obligations.LaneBlockDiscarded := by
  intro full ended hfull hended s u x l v body bytes silent t f line hf used rx some_ quiet ht hu
  subst hf ht
  have after : ended (s.feed x) l (s.feed x).pace = (s.feed x).setup.paceAfter l (s.feed x).pace := by
    rw [hended, (hfull _ _).trans (Setup.coveredBy_eq ..).symm]
    rfl
  obtain ⟨w, hw⟩ : ∃ w, w = s.setFeed x ((s.feed x).setRx l .hunting) := ⟨_, rfl⟩
  have feed : w.feed x = (s.feed x).setRx l .hunting := by rw [hw, State.feed_setFeed_self]
  have whole : exec (.laneBlockArrive x l bytes) s =
      .next ((judgeBlock x l v (body ++ bytes) w).onFeed x fun f => f.paceEnded l) :=
    congrArg Host.Outcome.next ((laneArrive_whole line used rx some_ quiet).trans (by rw [hw]))
  have ends : (w.onFeed x fun f => f.paceEnded l) = u := by
    rw [hu, hw, State.onFeed_setFeed, Feed.paceEnded_eq, after]
    simp
  have kept (h : judgeBlock x l v (body ++ bytes) w = w) : exec (.laneBlockArrive x l bytes) s = .next u := by
    rw [whole, h, ends]
  have starting : w.starting = s.starting := by rw [hw, State.setFeed_starting]
  have put : w.placed x = s.placed x := by rw [hw, State.setRx_placed]
  refine ⟨fun h => kept (judgeBlock_closed ?_ ..), fun h => kept (judgeBlock_discarded ?_),
    fun right h => kept (judgeBlock_mismatched right ?_), fun play run fits aligned last first young within ahead full => ?_⟩
  · rw [feed, Feed.setRx_inPlay, starting, put]
    obtain idle | complete | phase | small := h
    · exact .inl (Feed.inPlay_of_idle idle)
    · exact .inl (Feed.inPlay_of_complete complete)
    · exact .inr (.inl (beq_iff_eq.mpr phase))
    · refine .inr (.inr ?_)
      rw [State.placed, ← Bool.not_eq_true, Setup.fits_iff]
      omega
  · rw [feed, Feed.setRx_stampFresh, Feed.setRx_outlying, ← Bool.not_eq_true, Feed.stampFresh_iff]
    obtain aligned | ⟨p, hp, low⟩ | out := h
    · exact .inl fun fresh => aligned fresh.1
    · exact .inl fun fresh => absurd (fresh.2 p hp) (by omega)
    · exact .inr out
  · rwa [feed, Feed.setRx_setup]
  · have fresh : (w.feed x).stampFresh l v.stamp.toNat = true := by
      rw [feed, Feed.setRx_stampFresh]
      exact Feed.stampFresh_iff.mpr ⟨aligned, last⟩
    have test : (w.feed x).stampTest v.stamp.toNat = .overrun := by
      rw [feed, Feed.setRx_stampTest, Feed.stampTest_within (Feed.not_outlying first young within)]
      exact if_pos ⟨ahead, full.imp_right Feed.reusable_eq_false.mpr⟩
    have judged := judgeBlock_open (l := l) (v := v) (body := body ++ bytes)
      (by rw [feed, Feed.setRx_inPlay, play] : (w.feed x).inPlay = true)
      (by rw [starting, State.starting, run]; rfl)
      (by rw [put, State.placed, Setup.fits_iff, Nat.mul_comm]; exact fits)
    refine ⟨fun right lane count => ?_, fun wrong => kept ?_⟩
    · rw [if_pos right, if_pos ⟨lane, by rw [count, feed, Feed.setRx_setup], fresh⟩, test] at judged
      rw [whole, judged, ← ends, blockDetail_eq]
      cases x <;> rfl
    · rw [judged, if_neg (by simp [wrong]), if_neg]
      simp [test]

end Sys2Proof.Machine
end

section
/-!
O16: what a block that is placed leaves. The ring slot by slot (a gap's slots, the block's own, those that the skew rule
damages), the sample words, and the rest of the feed in one equation.
-/

namespace Sys2Proof.Machine

open Sys2Proof

/-! ## The gap's slots (R19) -/

/-- Stamps less than a ring apart have slots of their own. -/
theorem slot_ne {p q n : Nat} (hp : p % 32 = 0) (hq : q % 32 = 0) (lt : p < q) (near : q < p + 32 * n) :
    p / 32 % n ≠ q / 32 % n := by
  intro same
  have divides := (Nat.modEq_iff_dvd' (by omega)).mp same
  have large := Nat.le_of_dvd (by omega) divides
  omega

/-- The slot of a stamp that was never received (R19). -/
def missingSlot (q : Nat) : Slot := { stamp := some q, state := .missing, got := noLanes }

/-- Slots of consecutive stamps entered as MISSING, fewer than the ring holds. -/
theorem Feed.missed_get (f : Feed) {n : Nat} (len : f.ring.length = n) (count : f.setup.slotCount = n) {a : Nat}
    (ha : a % 32 = 0) {m : Nat} (hm : m ≤ n) :
    let g := (List.range m).foldl (fun g k => g.setSlot (a + 32 * k) (missingSlot (a + 32 * k))) f
    g.setup = f.setup ∧ g.ring.length = n ∧
      (∀ j, j < m → g.ring[(a + 32 * j) / 32 % n]? = some (missingSlot (a + 32 * j))) ∧
      ∀ k, (∀ j, j < m → (a + 32 * j) / 32 % n ≠ k) → g.ring[k]? = f.ring[k]? := by
  induction m with
  | zero => exact ⟨rfl, len, fun j hj => absurd hj (Nat.not_lt_zero j), fun _ _ => rfl⟩
  | succ m ih =>
    obtain ⟨setup, length, hit, miss⟩ := ih (by omega)
    dsimp only
    rw [List.range_succ, List.foldl_append, List.foldl_cons, List.foldl_nil]
    obtain ⟨g, hg⟩ : ∃ g, g = (List.range m).foldl (fun g k => g.setSlot (a + 32 * k) (missingSlot (a + 32 * k))) f :=
      ⟨_, rfl⟩
    rw [← hg] at setup length hit miss ⊢
    have ring : (g.setSlot (a + 32 * m) (missingSlot (a + 32 * m))).ring =
        g.ring.set ((a + 32 * m) / 32 % n) (missingSlot (a + 32 * m)) := by
      rw [Feed.setSlot, setup, count]
    refine ⟨setup, (List.length_set ..).trans length, fun j hj => ?_, fun k hk => ?_⟩
    · rw [ring]
      obtain same | lt := (Nat.lt_succ_iff_lt_or_eq.mp hj).symm
      · rw [same, List.getElem?_set_self]
        rw [length]
        exact Nat.mod_lt _ (by omega)
      · rw [List.getElem?_set_ne (slot_ne (by omega) (by omega) (by omega) (by omega)).symm]
        exact hit j lt
    · rw [ring, List.getElem?_set_ne (hk m (by omega))]
      exact miss k fun j hj => hk j (by omega)

/-- A stamp of the gap before a new stamp that keeps its slot: no later stamp of the same entry takes it (R19). -/
def Feed.InGap (f : Feed) (t q : Nat) : Prop := q % 32 = 0 ∧ f.h ≤ q ∧ q < t ∧ t < q + 2 ^ f.setup.dExp

/-- A ring of the setup's size, with the head and a new stamp at block boundaries. -/
structure Feed.Aligned (f : Feed) (t : Nat) : Prop where
  len : f.ring.length = 2 ^ f.setup.dExp / 32
  deep : 5 ≤ f.setup.dExp
  head : f.h % 32 = 0
  stamp : t % 32 = 0

section Gap

variable {f : Feed} {t : Nat} (ok : f.Aligned t)
include ok

theorem Feed.Aligned.depth_eq : f.setup.depth = 32 * f.setup.slotCount :=
  (Nat.mul_div_cancel' (pow_dvd_pow 2 ok.deep)).symm

theorem Feed.Aligned.slots_pos : 0 < f.setup.slotCount := by
  have depth := ok.depth_eq
  have pos : 0 < f.setup.depth := Nat.two_pow_pos _
  omega

theorem Feed.Aligned.slot_lt (q : Nat) : q / 32 % f.setup.slotCount < f.ring.length := by
  have len : f.ring.length = f.setup.slotCount := ok.len
  rw [len]
  exact Nat.mod_lt _ ok.slots_pos

/-- The gap, slot by slot. -/
theorem Feed.Aligned.openGap_get :
    (∀ q, f.InGap t q → (f.openGap t).ring[q / 32 % f.setup.slotCount]? = some (missingSlot q)) ∧
      ∀ k, (∀ q, f.InGap t q → q / 32 % f.setup.slotCount ≠ k) → (f.openGap t).ring[k]? = f.ring[k]? := by
  have depth := ok.depth_eq
  have pos := ok.slots_pos
  have head := ok.head
  have stamp := ok.stamp
  have hd : f.setup.depth = 2 ^ f.setup.dExp := rfl
  obtain ⟨a, ha⟩ : ∃ a, a = max f.h (t + 32 - f.setup.depth) := ⟨_, rfl⟩
  obtain ⟨-, -, hit, miss⟩ := f.missed_get (a := a) ok.len rfl (by omega) (m := (t - a) / 32) (by
    show (t - a) / 32 ≤ f.setup.slotCount
    omega)
  have gap : f.openGap t = (List.range ((t - a) / 32)).foldl
      (fun g k => g.setSlot (a + 32 * k) (missingSlot (a + 32 * k))) f := by rw [ha]; rfl
  rw [gap]
  refine ⟨fun q hq => ?_, fun k hk => ?_⟩
  · obtain ⟨aligned, least, most, near⟩ := hq
    have place := hit ((q - a) / 32) (by omega)
    rw [show a + 32 * ((q - a) / 32) = q by omega] at place
    exact place
  · exact miss k fun j hj => hk _ ⟨by omega, by omega, by omega, by omega⟩

/-! ## The slots of a placement (R17, R19, R20) -/

/-- The slots that a placement enters: the block's own and those of its gap. -/
def Feed.Hit (f : Feed) (t k : Nat) : Prop :=
  k = t / 32 % f.setup.slotCount ∨ ∃ q, f.InGap t q ∧ k = q / 32 % f.setup.slotCount

theorem Feed.Aligned.slotted_own (l : Lane) (valid : Bool) :
    (f.slotted l t valid).ring[t / 32 % f.setup.slotCount]? =
      some (if f.h ≤ t then newSlot f.setup l t valid else (f.slotAt t).joined l valid) := by
  have len : (f.openGap t).ring.length = f.ring.length := (f.openGap_kept t).2
  unfold Feed.slotted
  split
  · simp only [Feed.setSlot, f.openGap_setup]
    exact List.getElem?_set_self (len.symm ▸ ok.slot_lt t)
  · exact List.getElem?_set_self (ok.slot_lt t)

theorem Feed.Aligned.slotted_gap (l : Lane) (valid : Bool) {q : Nat} (hq : f.InGap t q) :
    (f.slotted l t valid).ring[q / 32 % f.setup.slotCount]? = some (missingSlot q) := by
  have inside := ok.openGap_get.1 q hq
  have depth := ok.depth_eq
  have stamp := ok.stamp
  obtain ⟨aligned, least, most, near⟩ := hq
  have hd : f.setup.depth = 2 ^ f.setup.dExp := rfl
  rw [Feed.slotted, if_pos (by omega)]
  simp only [Feed.setSlot, f.openGap_setup]
  rw [List.getElem?_set_ne (slot_ne aligned stamp most (by omega)).symm]
  exact inside

theorem Feed.Aligned.slotted_rest (l : Lane) (valid : Bool) {k : Nat} (hk : ¬ f.Hit t k) :
    (f.slotted l t valid).ring[k]? = f.ring[k]? := by
  obtain ⟨own, gap⟩ := not_or.mp hk
  unfold Feed.slotted
  split
  · simp only [Feed.setSlot, f.openGap_setup]
    rw [List.getElem?_set_ne (Ne.symm own)]
    exact ok.openGap_get.2 k fun q hq same => gap ⟨q, hq, same.symm⟩
  · exact List.getElem?_set_ne (Ne.symm own)

end Gap

/-! ## The slots that the skew rule damages (R21) -/

/-- FILLING from one lane alone, two blocks or more behind that lane's new stamp (R21). -/
def Slot.Lags (w : Slot) (l : Lane) (t : Nat) : Prop :=
  w.state = .filling ∧ w.got = noLanes.add l ∧ ∃ q, w.stamp = some q ∧ q + 64 ≤ t

theorem Feed.mem_skewed {f : Feed} {l : Lane} {t q : Nat} :
    q ∈ f.skewed l t ↔ ∃ w ∈ f.ring, w.Lags l t ∧ w.stamp = some q := by
  unfold Feed.skewed Slot.Lags
  rw [List.mem_insertionSort, List.mem_filterMap]
  refine exists_congr fun w => and_congr_right fun _ => ?_
  cases stamp : w.stamp with
  | none => simp
  | some p =>
    simp only [Option.ite_none_right_eq_some, Option.some.injEq, Bool.and_eq_true, beq_iff_eq, decide_eq_true_iff]
    constructor
    · rintro ⟨⟨⟨filling, got⟩, old⟩, rfl⟩
      exact ⟨⟨filling, got, p, rfl, old⟩, rfl⟩
    · rintro ⟨⟨filling, got, _, rfl, old⟩, rfl⟩
      exact ⟨⟨⟨filling, got⟩, old⟩, rfl⟩

/-- Every stamp stands in its own slot (R17). -/
def Feed.Own (f : Feed) : Prop :=
  ∀ (k : Nat) (w : Slot) (q : Nat), f.ring[k]? = some w → w.stamp = some q → q / 32 % f.setup.slotCount = k

theorem Feed.RingOk.own {f : Feed} (h : f.RingOk) : f.Own := by
  obtain ⟨-, -, -, -, fits⟩ := Feed.ringOk_iff.mp h
  intro k w q hw hq
  obtain ⟨-, -, own⟩ := fits k w hw q hq
  exact own

/-- The stamps that the skew rule damages, rising and each named once. -/
theorem Feed.Own.skewed_rising {f : Feed} (own : f.Own) (l : Lane) (t : Nat) : (f.skewed l t).Pairwise (· < ·) := by
  have rising : (f.skewed l t).Pairwise (· ≤ ·) := List.pairwise_insertionSort _ _
  have distinct : (f.skewed l t).Nodup := by
    unfold Feed.skewed
    rw [(List.perm_insertionSort _ _).nodup_iff, List.nodup_iff_pairwise_ne, List.pairwise_filterMap,
      List.pairwise_iff_getElem]
    intro i j hi hj lt p hp q hq same
    have stampOf {w : Slot} {q : Nat} (hq : (match w.stamp with
        | some t' => if w.state == .filling && w.got == noLanes.add l && decide (t' + 64 ≤ t) then some t' else none
        | none => none) = some q) : w.stamp = some q := by
      split at hq
      next stamp =>
        rw [stamp]
        exact (Option.ite_none_right_eq_some.mp hq).2
      · cases hq
    have left := own i _ p (List.getElem?_eq_getElem hi) (stampOf hp)
    have right := own j _ q (List.getElem?_eq_getElem hj) (stampOf hq)
    rw [same, right] at left
    omega
  exact rising.imp₂ (fun _ _ le ne => lt_of_le_of_ne le ne) (List.nodup_iff_pairwise_ne.mp distinct)

/-- A slot damaged, and the others. -/
theorem Feed.spoilt_get {f : Feed} (q : Nat) {k : Nat} {w : Slot} (hw : f.ring[k]? = some w) :
    (f.spoilt q).ring[k]? =
      some (if q / 32 % f.setup.slotCount = k then { w with state := .damaged } else w) := by
  have ring : (f.spoilt q).ring =
      f.ring.set (q / 32 % f.setup.slotCount) { f.slotAt q with state := .damaged } := rfl
  have bound : k < f.ring.length := (List.getElem?_eq_some_iff.mp hw).1
  rw [ring]
  split
  next same =>
    subst same
    rw [List.getElem?_set_self bound, Feed.slotAt, List.getD_eq_getElem?_getD, hw]
    rfl
  next other => rw [List.getElem?_set_ne other, hw]

/-- Several slots damaged, and the others. -/
theorem Feed.spoilts_get (late : List Nat) {f : Feed} {k : Nat} {w : Slot} (hw : f.ring[k]? = some w) :
    ((∃ q ∈ late, q / 32 % f.setup.slotCount = k) →
        (late.foldl Feed.spoilt f).ring[k]? = some { w with state := .damaged }) ∧
      ((∀ q ∈ late, q / 32 % f.setup.slotCount ≠ k) → (late.foldl Feed.spoilt f).ring[k]? = some w) := by
  induction late generalizing f w with
  | nil => exact ⟨fun ⟨q, hq, _⟩ => absurd hq List.not_mem_nil, fun _ => hw⟩
  | cons p late ih =>
    have one := Feed.spoilt_get p hw
    have setup : (f.spoilt p).setup = f.setup := rfl
    obtain ⟨struck, spared⟩ := ih one
    rw [setup] at struck spared
    rw [List.foldl_cons]
    refine ⟨fun ⟨q, hq, own⟩ => ?_, fun none_ => ?_⟩
    · by_cases rest : ∃ q ∈ late, q / 32 % f.setup.slotCount = k
      · rw [struck rest]
        split <;> rfl
      · rw [spared fun q hq own => rest ⟨q, hq, own⟩]
        obtain rfl | hq := List.mem_cons.mp hq
        · rw [if_pos own]
        · exact absurd ⟨q, hq, own⟩ rest
    · rw [spared fun q hq => none_ q (List.mem_cons_of_mem _ hq), if_neg (none_ p List.mem_cons_self)]

/-- The skew rule, slot by slot, in a ring whose stamps stand in their own slots. -/
theorem Feed.Own.unskewed_get {f : Feed} (own : f.Own) (two : f.setup.lanes = 2) (l : Lane) (t : Nat) {k : Nat} {w : Slot}
    (hw : f.ring[k]? = some w) : (w.Lags l t → (f.unskewed l t).ring[k]? = some { w with state := .damaged }) ∧
      (¬ w.Lags l t → (f.unskewed l t).ring[k]? = some w) := by
  obtain ⟨struck, spared⟩ := Feed.spoilts_get (f.skewed l t) hw
  rw [Feed.unskewed, if_pos two]
  refine ⟨fun lags => struck ?_, fun well => spared fun q hq slot => well ?_⟩
  · obtain ⟨q, hq, -⟩ := lags.2.2
    exact ⟨q, Feed.mem_skewed.mpr ⟨w, List.mem_of_getElem? hw, lags, hq⟩, own k w q hw hq⟩
  · obtain ⟨w', member, lags, stamp⟩ := Feed.mem_skewed.mp hq
    obtain ⟨k', hk'⟩ := List.getElem?_of_mem member
    rw [own k' w' q hk' stamp] at slot
    rw [slot, hw, Option.some.injEq] at hk'
    rwa [hk']

/-! ## The ring after a placement -/

/-- A block's slot is entered where its stamp belongs: beyond the head, or over its own stamp (R18). -/
theorem Feed.Aligned.slotted_keepsOwn {f : Feed} {t : Nat} (ok : f.Aligned t) (own : f.Own)
    (place : f.h ≤ t ∨ (f.slotAt t).stamp = some t) (l : Lane) (valid : Bool) : (f.slotted l t valid).Own := by
  intro k w q hw hq
  rw [f.slotted_setup]
  by_cases hit : f.Hit t k
  · obtain rfl | ⟨p, hp, rfl⟩ := hit
    · have stamp : w.stamp = some t := by
        rw [ok.slotted_own, Option.some.injEq] at hw
        rw [← hw]
        split
        · rfl
        next below => exact place.resolve_left below
      rw [hq, Option.some.injEq] at stamp
      rw [stamp]
    · rw [ok.slotted_gap l valid hp, Option.some.injEq] at hw
      rw [← hw, missingSlot, Option.some.injEq] at hq
      rw [hq]
  · rw [ok.slotted_rest l valid hit] at hw
    exact own k w q hw hq

@[simp] theorem Feed.setLast_ring (f : Feed) (l : Lane) (v : Option Nat) : (f.setLast l v).ring = f.ring := by
  cases l <;> rfl

/-- A slot that the skew rule passes over stands after a placement as the placement entered it. -/
theorem Feed.ringed_get {f : Feed} {l : Lane} {t : Nat} {valid : Bool}
    (own : f.setup.lanes = 2 → (f.slotted l t valid).Own) {k : Nat} {w : Slot}
    (hw : (f.slotted l t valid).ring[k]? = some w) (well : ¬ w.Lags l t) : (f.ringed l t valid).ring[k]? = some w := by
  have setup : ((f.slotted l t valid).setLast l (some t)).setup = f.setup := by rw [Feed.setLast_setup, f.slotted_setup]
  by_cases two : f.setup.lanes = 2
  · have own' : ((f.slotted l t valid).setLast l (some t)).Own := by
      unfold Feed.Own
      rw [Feed.setLast_ring, Feed.setLast_setup]
      exact own two
    exact (own'.unskewed_get (by rw [setup, two]) l t (by rw [Feed.setLast_ring, hw])).2 well
  · rw [Feed.ringed, Feed.unskewed, if_neg (by rw [setup]; exact two), Feed.setLast_ring, hw]

/-- A slot that the skew rule damages. -/
theorem Feed.ringed_lagging {f : Feed} {l : Lane} {t : Nat} {valid : Bool} (two : f.setup.lanes = 2)
    (own : (f.slotted l t valid).Own) {k : Nat} {w : Slot} (hw : (f.slotted l t valid).ring[k]? = some w)
    (lags : w.Lags l t) : (f.ringed l t valid).ring[k]? = some { w with state := .damaged } := by
  have own' : ((f.slotted l t valid).setLast l (some t)).Own := by
    unfold Feed.Own
    rw [Feed.setLast_ring, Feed.setLast_setup]
    exact own
  exact (own'.unskewed_get (by rw [Feed.setLast_setup, f.slotted_setup, two]) l t (by rw [Feed.setLast_ring, hw])).1 lags

theorem missingSlot_not_lags (q : Nat) (l : Lane) (t : Nat) : ¬ (missingSlot q).Lags l t := fun ⟨filling, _⟩ => by
  cases filling

theorem Slot.not_lags_of_stamp {w : Slot} {t : Nat} (h : w.stamp = some t) (l : Lane) : ¬ w.Lags l t := by
  rintro ⟨-, -, q, hq, old⟩
  rw [h, Option.some.injEq] at hq
  omega

theorem Feed.slotAt_of_get {f : Feed} {q : Nat} {v : Slot} (h : f.ring[q / 32 % f.setup.slotCount]? = some v) :
    f.slotAt q = v := by
  rw [Feed.slotAt, List.getD_eq_getElem?_getD, h]
  rfl

section Ringed

variable {f : Feed} {t : Nat} (ok : f.Aligned t) {l : Lane} {valid : Bool}
  (place : f.h ≤ t ∨ (f.slotAt t).stamp = some t)
include ok place

/-- The stamps that the skew rule damages are those of the lagging slots that the placement did not enter. -/
theorem Feed.Aligned.mem_late (two : f.setup.lanes = 2) {q : Nat} : q ∈ f.late l t valid ↔
    ∃ k w, f.ring[k]? = some w ∧ ¬ f.Hit t k ∧ w.Lags l t ∧ w.stamp = some q := by
  rw [Feed.late, if_pos two, Feed.mem_skewed, Feed.setLast_ring]
  constructor
  · rintro ⟨w, member, lags, stamp⟩
    obtain ⟨k, hk⟩ := List.getElem?_of_mem member
    have hit : ¬ f.Hit t k := by
      rintro (rfl | ⟨p, hp, rfl⟩)
      · rw [ok.slotted_own, Option.some.injEq] at hk
        refine Slot.not_lags_of_stamp (t := t) ?_ l lags
        rw [← hk]
        split
        · rfl
        next below => exact place.resolve_left below
      · rw [ok.slotted_gap l valid hp, Option.some.injEq] at hk
        exact missingSlot_not_lags p l t (hk ▸ lags)
    rw [ok.slotted_rest l valid hit] at hk
    exact ⟨k, w, hk, hit, lags, stamp⟩
  · rintro ⟨k, w, hk, hit, lags, stamp⟩
    rw [← ok.slotted_rest l valid hit] at hk
    exact ⟨w, List.mem_of_getElem? hk, lags, stamp⟩

variable (own : f.setup.lanes = 2 → f.Own)
include own

/-- The block's own slot. -/
theorem Feed.Aligned.ringed_own : (f.ringed l t valid).slotAt t =
    if f.h ≤ t then newSlot f.setup l t valid else (f.slotAt t).joined l valid := by
  refine Feed.slotAt_of_get ?_
  rw [f.ringed_setup]
  refine Feed.ringed_get (fun two => ok.slotted_keepsOwn (own two) place l valid) (ok.slotted_own l valid)
    (Slot.not_lags_of_stamp ?_ l)
  split
  · rfl
  next below => exact place.resolve_left below

/-- The gap's slots. -/
theorem Feed.Aligned.ringed_gap {q : Nat} (hq : f.InGap t q) : (f.ringed l t valid).slotAt q = missingSlot q := by
  refine Feed.slotAt_of_get ?_
  rw [f.ringed_setup]
  exact Feed.ringed_get (fun two => ok.slotted_keepsOwn (own two) place l valid) (ok.slotted_gap l valid hq)
    (missingSlot_not_lags q l t)

theorem Feed.Aligned.late_rising (two : f.setup.lanes = 2) : (f.late l t valid).Pairwise (· < ·) := by
  rw [Feed.late, if_pos two]
  refine Feed.Own.skewed_rising ?_ l t
  unfold Feed.Own
  rw [Feed.setLast_ring, Feed.setLast_setup]
  exact ok.slotted_keepsOwn (own two) place l valid

end Ringed

/-! ## The sample words (R14) -/

section Samples

variable {addr : Nat → Nat} (bs : List Byte) (k : Nat) (m : Memory) (ok : Memory.wf m = true)
include ok

theorem writeSamples_other {a : Nat} (other : ∀ j, j < bs.length / 3 → a ≠ addr (k + j)) :
    (writeSamples addr bs k m).read a = m.read a := by
  fun_induction writeSamples addr bs k m with
  | case1 b0 b1 b2 rest k m ih =>
    have len : (b0 :: b1 :: b2 :: rest).length / 3 = rest.length / 3 + 1 := by
      simp only [List.length_cons]
      omega
    rw [len] at other
    rw [ih (Memory.write_wf _ _ ok) fun j hj => by
      have := other (j + 1) (by omega)
      rwa [show k + (j + 1) = k + 1 + j by omega] at this]
    rw [Memory.read_write _ _ _ ok, if_neg (show a ≠ addr k from other 0 (by omega))]
  | case2 => rfl

/-- The samples one after the other, at addresses of their own. -/
theorem writeSamples_read {j : Nat} (hj : j < bs.length / 3)
    (apart : ∀ i, i < bs.length / 3 → addr (k + i) = addr (k + j) → i = j) :
    (writeSamples addr bs k m).read (addr (k + j)) =
      { sample := BitVec.ofNat 24 (ofBe ((bs.drop (3 * j)).take 3)), good := true } := by
  fun_induction writeSamples addr bs k m generalizing j with
  | case1 b0 b1 b2 rest k m ih =>
    have len : (b0 :: b1 :: b2 :: rest).length / 3 = rest.length / 3 + 1 := by
      simp only [List.length_cons]
      omega
    rw [len] at hj apart
    have wf := Memory.write_wf (addr k) (BitVec.ofNat 24 (ofBe [b0, b1, b2])) ok
    cases j with
    | zero =>
      rw [writeSamples_other rest (k + 1) _ wf fun i hi same => ?_, Memory.read_write _ _ _ ok]
      · exact if_pos rfl
      · have := apart (i + 1) (by omega) (by rw [show k + (i + 1) = k + 1 + i by omega]; exact same.symm)
        omega
    | succ j =>
      have shift (i : Nat) : k + (i + 1) = k + 1 + i := by omega
      rw [shift j, ih wf (by omega) fun i hi same => ?_]
      · rw [show 3 * (j + 1) = 3 * j + 3 by omega]
        rfl
      · have := apart (i + 1) (by omega) (by rw [shift i, shift j]; exact same)
        omega
  | case2 bs k m short =>
    exfalso
    match bs, short, hj with
    | [], _, hj => simp at hj
    | [_], _, hj => simp at hj
    | [_, _], _, hj => simp at hj
    | b0 :: b1 :: b2 :: rest, short, _ => exact short b0 b1 b2 rest rfl

end Samples

/-- Words of one ring within a block are told apart by channel and frame (R14). -/
theorem State.ringAddr_inj {s : State} {x : Side} {n t : Nat} (depth : (s.feed x).setup.depth = 32 * n) (pos : 0 < n)
    {c d k j : Nat} (hk : k < 32) (hj : j < 32)
    (same : s.ringAddr x c (t + k) = s.ringAddr x d (t + j)) : c = d ∧ k = j := by
  unfold State.ringAddr at same
  rw [depth] at same
  have some_ : 0 < 32 * n := by omega
  have frame (i : Nat) : (t + i) % (32 * n) < 32 * n := Nat.mod_lt _ some_
  have tail (c i : Nat) : (c * (32 * n) + (t + i) % (32 * n)) / (32 * n) = c := by
    rw [Nat.add_comm, Nat.add_mul_div_right _ _ some_, Nat.div_eq_of_lt (frame i), Nat.zero_add]
  have body : c * (32 * n) + (t + k) % (32 * n) = d * (32 * n) + (t + j) % (32 * n) := by omega
  have channel : c = d := by rw [← tail c k, body, tail]
  subst channel
  have frames : (t + k) % (32 * n) = (t + j) % (32 * n) := by omega
  have inner := congrArg (· % 32) frames
  simp only [Nat.mod_mul_right_mod] at inner
  exact ⟨rfl, by omega⟩

section Half

variable {s : State} {x : Side} {l : Lane} {t count n : Nat} {samples : List Byte} (ok : s.MemOk)
  (channels : (s.feed x).setup.laneCount l = count) (len : samples.length = 96 * count)
  (depth : (s.feed x).setup.depth = 32 * n) (pos : 0 < n)
include ok channels len

/-- Words that no sample of the half has. -/
theorem State.withSamples_other {a : Nat}
    (other : ∀ c k, c < count → k < 32 → a ≠ s.ringAddr x ((s.feed x).setup.firstChannel l + c) (t + k)) :
    (s.withSamples x l t samples).mem.read a = s.mem.read a := by
  refine writeSamples_other samples 0 s.mem ok fun j hj => ?_
  have some_ : 0 < count := by omega
  have frame : j / count < 32 := (Nat.div_lt_iff_lt_mul some_).mpr (by omega)
  rw [channels, Nat.zero_add]
  exact other _ _ (Nat.mod_lt _ some_) frame

include depth pos

/-- Every sample lies in its own word (R14). -/
theorem State.withSamples_read {c k : Nat} (hc : c < count) (hk : k < 32) :
    (s.withSamples x l t samples).mem.read (s.ringAddr x ((s.feed x).setup.firstChannel l + c) (t + k)) =
      { sample := BitVec.ofNat 24 (ofBe ((samples.drop (3 * (k * count + c))).take 3)), good := true } := by
  have some_ : 0 < count := by omega
  have rows : k * count + count ≤ 32 * count := by
    rw [← Nat.succ_mul]
    exact Nat.mul_le_mul_right _ hk
  have channel : (k * count + c) % count = c := by
    rw [Nat.add_comm, Nat.add_mul_mod_self_right, Nat.mod_eq_of_lt hc]
  have frame : (k * count + c) / count = k := by
    rw [Nat.add_comm, Nat.add_mul_div_right _ _ some_, Nat.div_eq_of_lt hc, Nat.zero_add]
  have word := writeSamples_read (addr := fun k => s.ringAddr x
    ((s.feed x).setup.firstChannel l + k % (s.feed x).setup.laneCount l) (t + k / (s.feed x).setup.laneCount l))
    samples 0 s.mem ok (j := k * count + c) (by omega) fun i hi same => by
      rw [channels, Nat.zero_add, Nat.zero_add, channel, frame] at same
      have row : i / count < 32 := (Nat.div_lt_iff_lt_mul some_).mpr (by omega)
      obtain ⟨sum, rfl⟩ := State.ringAddr_inj depth pos row hk same
      have column : i % count = c := Nat.add_left_cancel sum
      rw [← column, Nat.mul_comm, Nat.div_add_mod]
  simp only [channels, Nat.zero_add, channel, frame] at word
  rw [← word, State.withSamples, channels]

end Half

/-- A sample of a body that ends with its check word. -/
theorem sample_of_body {whole : List Byte} {count c k : Nat} (hc : c < count) (hk : k < 32) :
    ((whole.take (96 * count)).drop (3 * (k * count + c))).take 3 = (whole.drop (3 * (k * count + c))).take 3 := by
  have rows : k * count + count ≤ 32 * count := by
    rw [← Nat.succ_mul]
    exact Nat.mul_le_mul_right _ hk
  rw [List.drop_take, List.take_take, Nat.min_eq_left (by omega)]

/-! ## A receiver's state plays no part in a placement -/

theorem Feed.setRx_setSlot (f : Feed) (l : Lane) (r : Receiver) (q : Nat) (v : Slot) :
    (f.setRx l r).setSlot q v = (f.setSlot q v).setRx l r := by cases l <;> rfl

theorem Feed.setRx_slotAt (f : Feed) (l : Lane) (r : Receiver) (q : Nat) : (f.setRx l r).slotAt q = f.slotAt q := by
  cases l <;> rfl

theorem Feed.setRx_openGap (f : Feed) (l : Lane) (r : Receiver) (t : Nat) :
    (f.setRx l r).openGap t = (f.openGap t).setRx l r := by
  have head : (f.setRx l r).h = f.h := by cases l <;> rfl
  have run (ks : List Nat) (a : Nat) (g : Feed) :
      ks.foldl (fun g k => g.setSlot (a + 32 * k) (missingSlot (a + 32 * k))) (g.setRx l r) =
        (ks.foldl (fun g k => g.setSlot (a + 32 * k) (missingSlot (a + 32 * k))) g).setRx l r := by
    induction ks generalizing g with
    | nil => rfl
    | cons k ks ih => rw [List.foldl_cons, List.foldl_cons, Feed.setRx_setSlot, ih]
  unfold Feed.openGap
  dsimp only
  rw [head, Feed.setRx_setup]
  exact run ..

theorem Feed.setRx_slotted (f : Feed) (l k : Lane) (r : Receiver) (t : Nat) (valid : Bool) :
    (f.setRx l r).slotted k t valid = (f.slotted k t valid).setRx l r := by
  have head : (f.setRx l r).h = f.h := by cases l <;> rfl
  unfold Feed.slotted
  rw [head, Feed.setRx_openGap, Feed.setRx_setSlot, Feed.setRx_setSlot, Feed.setRx_slotAt, Feed.setRx_setup]
  split
  · cases l <;> rfl
  · rfl

theorem Feed.setRx_spoilts (late : List Nat) (f : Feed) (l : Lane) (r : Receiver) :
    late.foldl Feed.spoilt (f.setRx l r) = (late.foldl Feed.spoilt f).setRx l r := by
  have one (g : Feed) (q : Nat) : (g.setRx l r).spoilt q = (g.spoilt q).setRx l r := by cases l <;> rfl
  induction late generalizing f with
  | nil => rfl
  | cons q late ih => rw [List.foldl_cons, List.foldl_cons, one, ih]

theorem Feed.setRx_setLast (f : Feed) (l k : Lane) (r : Receiver) (v : Option Nat) :
    (f.setRx l r).setLast k v = (f.setLast k v).setRx l r := by cases l <;> cases k <;> rfl

theorem Feed.setRx_skewed (f : Feed) (l k : Lane) (r : Receiver) (t : Nat) : (f.setRx l r).skewed k t = f.skewed k t := by
  cases l <;> rfl

theorem Feed.setRx_late (f : Feed) (l k : Lane) (r : Receiver) (t : Nat) (valid : Bool) :
    (f.setRx l r).late k t valid = f.late k t valid := by
  rw [Feed.late, Feed.setRx_setup, Feed.setRx_slotted, Feed.setRx_setLast, Feed.setRx_skewed, Feed.late]

theorem Feed.setRx_ringed (f : Feed) (l k : Lane) (r : Receiver) (t : Nat) (valid : Bool) :
    (f.setRx l r).ringed k t valid = (f.ringed k t valid).setRx l r := by
  rw [Feed.ringed, Feed.setRx_slotted, Feed.setRx_setLast, Feed.unskewed, Feed.setRx_setup, Feed.setRx_skewed,
    Feed.setRx_spoilts, Feed.ringed, Feed.unskewed]
  split <;> rfl

theorem Feed.setRx_afterBlock (f : Feed) (l k : Lane) (r : Receiver) (t : Nat) (valid ended starting : Bool) :
    (f.setRx l r).afterBlock k t valid ended starting = (f.afterBlock k t valid ended starting).setRx l r := by
  have intake : (f.setRx l r).intakeEnded = f.intakeEnded := by cases l <;> rfl
  have fill : (f.setRx l r).fill = f.fill := by cases l <;> rfl
  unfold Feed.afterBlock
  dsimp only
  rw [Feed.setRx_ringed, intake, fill]
  split <;> split <;> cases l <;> rfl

/-! ## The notices of a placement -/

/-- A placement's notices in order: the gap or a skipped half, the check word, the skews by rising stamp (log 20). -/
def told (x : Side) (f : Feed) (l : Lane) (t : Nat) (valid : Bool) (s : State) : State :=
  toldSkew x (f.late l t valid) (toldSlot x f t valid s)

theorem toldSkew_frame (x : Side) (late : List Nat) (s : State) (m : Memory) (a b : Feed) :
    toldSkew x late { s with mem := m, feedA := a, feedB := b } =
      { toldSkew x late s with mem := m, feedA := a, feedB := b } := by
  induction late generalizing s with
  | nil => rfl
  | cons q late ih => exact ih (raise .damage (blockDetail x 3 q) s)

theorem toldSlot_frame (x : Side) (f : Feed) (t : Nat) (valid : Bool) (s : State) (m : Memory) (a b : Feed) :
    toldSlot x f t valid { s with mem := m, feedA := a, feedB := b } =
      { toldSlot x f t valid s with mem := m, feedA := a, feedB := b } := by
  unfold toldSlot
  split <;> rfl

theorem told_frame (x : Side) (f : Feed) (l : Lane) (t : Nat) (valid : Bool) (s : State) (m : Memory) (a b : Feed) :
    told x f l t valid { s with mem := m, feedA := a, feedB := b } =
      { told x f l t valid s with mem := m, feedA := a, feedB := b } := by
  rw [told, toldSlot_frame, toldSkew_frame, told]

theorem toldSkew_rest (x : Side) (late : List Nat) (s : State) :
    toldSkew x late s = { s with notices := (toldSkew x late s).notices } := by
  induction late generalizing s with
  | nil => rfl
  | cons q late ih => exact ih (raise .damage (blockDetail x 3 q) s)

/-- Of the state a placement's notices change the notice unit alone. -/
theorem told_rest (x : Side) (f : Feed) (l : Lane) (t : Nat) (valid : Bool) (s : State) :
    told x f l t valid s = { s with notices := (told x f l t valid s).notices } := by
  have slot : toldSlot x f t valid s = { s with notices := (toldSlot x f t valid s).notices } := by
    unfold toldSlot
    split <;> rfl
  refine (toldSkew_rest x (f.late l t valid) (toldSlot x f t valid s)).trans ?_
  exact congrArg (fun u : State => { u with notices := (told x f l t valid s).notices }) slot

/-- The slot's notices, named as the obligation names them. -/
theorem toldSlot_eq (x : Side) (f : Feed) (t : Nat) (valid : Bool) (s : State) : toldSlot x f t valid s =
    if valid = true then
      if f.h < t then raise .damage ([BitVec.ofNat 8 x.code, 1] ++ be 2 (f.h / 32 % 65536)) s
      else if t < f.h ∧ (f.slotAt t).state = .missing ∧ valid = true then
        raise .damage ([BitVec.ofNat 8 x.code, 2] ++ be 2 (t / 32 % 65536)) s
      else s
    else raise .damage ([BitVec.ofNat 8 x.code, 0] ++ be 2 (t / 32 % 65536))
      (if f.h < t then raise .damage ([BitVec.ofNat 8 x.code, 1] ++ be 2 (f.h / 32 % 65536)) s else s) := by
  unfold toldSlot
  rw [raiseIf_eq, raiseIf_eq, raiseIf_eq, blockDetail_eq, blockDetail_eq, blockDetail_eq]
  obtain below | rfl | ahead := lt_trichotomy t f.h
  · cases valid <;> simp [below, below.not_ge, below.not_gt]
  · cases valid <;> simp
  · cases valid <;> simp [ahead, ahead.le]

/-! ## The rest of the feed after a placement (R19, R22, R24, R26, R28, R29, R52) -/

theorem Feed.ringed_eq (f : Feed) (l : Lane) (t : Nat) (valid : Bool) : f.ringed l t valid =
    { f.setLast l (some t) with ring := (f.ringed l t valid).ring, h := (f.ringed l t valid).h } := by
  have same := (f.ringed_kept l t valid).1
  have back := congrArg (fun g : Feed => { g with ring := (f.ringed l t valid).ring, h := (f.ringed l t valid).h }) same
  exact back

/-- The head after a placement (R19). -/
theorem Feed.Aligned.ringed_h {f : Feed} {t : Nat} (ok : f.Aligned t) (l : Lane) (valid : Bool) :
    (f.ringed l t valid).h = max f.h (t + 32) := by
  have head := ok.head
  have stamp := ok.stamp
  rw [(f.ringed_kept l t valid).2.1, Feed.slotted]
  split
  · show t + 32 = _
    omega
  · show f.h = _
    omega

/-- A feed that becomes PRIMED stays in play. -/
theorem Feed.primes_inPlay (f : Feed) : f.primes.inPlay = f.inPlay := by
  have states : f.primes.st = .primed ∧ f.st = .seeking ∨ f.primes.st = f.st := by
    unfold Feed.primes
    dsimp only
    split
    next primed =>
      rw [Bool.and_eq_true, beq_iff_eq] at primed
      exact .inl ⟨rfl, primed.1⟩
    · exact .inr rfl
  unfold Feed.inPlay
  obtain ⟨primed, seeking⟩ | same := states
  · rw [primed, seeking]
  · rw [same]

/-- The feed after a placement, before PRIMED and the pace line: the END flag and the lane watch. -/
def Feed.marked (f : Feed) (l : Lane) (t : Nat) (valid ended : Bool) : Feed :=
  let g := if valid && ended then (f.ringed l t valid).markEnd t else f.ringed l t valid
  if valid && !f.intakeEnded then g.goodBlock l else g

section After

variable (f : Feed) (l : Lane) (t : Nat) (valid ended starting : Bool)

theorem Feed.marked_eq : f.marked l t valid ended =
    { f.setLast l (some t) with
      ring := (f.ringed l t valid).ring, h := (f.ringed l t valid).h
      sourceEnd := (f.marked l t valid ended).sourceEnd, watch := (f.marked l t valid ended).watch } := by
  unfold Feed.marked
  rw [f.ringed_eq]
  dsimp only
  split <;> split <;> rfl

theorem Feed.marked_st : (f.marked l t valid ended).st = f.st := by
  rw [f.marked_eq]
  cases l <;> rfl

theorem Feed.marked_setup : (f.marked l t valid ended).setup = f.setup := by
  rw [f.marked_eq]
  cases l <;> rfl

theorem Feed.marked_rs : (f.marked l t valid ended).rs = f.rs := by
  rw [f.marked_eq]
  cases l <;> rfl

theorem Feed.marked_pace : (f.marked l t valid ended).pace = f.pace := by
  rw [f.marked_eq]
  cases l <;> rfl

theorem Feed.afterBlock_marked : f.afterBlock l t valid ended starting =
    (f.marked l t valid ended).primes.paceSettled f.fill starting := rfl

theorem Feed.afterBlock_ring : (f.afterBlock l t valid ended starting).ring = (f.ringed l t valid).ring := by
  rw [f.afterBlock_marked, f.marked_eq]
  rfl

theorem Feed.afterBlock_h : (f.afterBlock l t valid ended starting).h = (f.ringed l t valid).h := by
  rw [f.afterBlock_marked, f.marked_eq]
  rfl

/-- What a placement changes of a feed. -/
theorem Feed.afterBlock_eq {g : Feed} (hg : g = f.afterBlock l t valid ended starting) : g =
    { f.setLast l (some t) with
      ring := g.ring, h := g.h, sourceEnd := g.sourceEnd, pace := g.pace, watch := g.watch, st := g.st } := by
  rw [hg, f.afterBlock_marked, f.marked_eq]
  rfl

/-- The source end after a placement (R22). -/
theorem Feed.afterBlock_sourceEnd : (f.afterBlock l t valid ended starting).sourceEnd =
    if (valid && ended) = true then
      some (f.sourceEnd.elim (t + 31) fun e => min e (t + 31))
    else f.sourceEnd := by
  have old : (f.ringed l t valid).sourceEnd = f.sourceEnd := by
    rw [f.ringed_eq]
    cases l <;> rfl
  have new : (f.afterBlock l t valid ended starting).sourceEnd =
      (if valid && ended then (f.ringed l t valid).markEnd t else f.ringed l t valid).sourceEnd := by
    show (f.marked l t valid ended).sourceEnd = _
    unfold Feed.marked
    dsimp only
    split <;> rfl
  rw [new, ← old]
  split
  · rw [Feed.markEnd]
    cases (f.ringed l t valid).sourceEnd <;> rfl
  · rfl

/-- The lane watch after a placement (R29). -/
theorem Feed.afterBlock_watch : (f.afterBlock l t valid ended starting).watch =
    if (valid && !f.intakeEnded) = true then
      if f.watch.armed then { f.watch with marks := f.watch.marks.add l }
      else { f.watch with armed := true, blocks := 0, marks := noLanes.add l, paceBad := false, iOpen := f.rs.i }
    else f.watch := by
  have old : (f.ringed l t valid).watch = f.watch ∧ (f.ringed l t valid).rs = f.rs := by
    rw [f.ringed_eq]
    cases l <;> exact ⟨rfl, rfl⟩
  rw [← old.1, ← old.2]
  show (f.marked l t valid ended).watch = _
  unfold Feed.marked
  dsimp only
  split
  · split <;> rfl
  · split <;> rfl

/-- A SEEKING feed may become PRIMED at a placement (R52). -/
theorem Feed.afterBlock_st {g : Feed} (hg : g = f.afterBlock l t valid ended starting) : g.st =
    if f.st = .seeking ∧ (2 ^ f.setup.dExp / 2 ≤ g.h - f.rs.i ∨ g.intakeEnded = true) then .primed else f.st := by
  have head : g.h = (f.marked l t valid ended).h := by rw [hg]; rfl
  have intake : g.intakeEnded = (f.marked l t valid ended).intakeEnded := by rw [hg]; rfl
  have st : g.st = (f.marked l t valid ended).primes.st := by rw [hg]; rfl
  rw [st, head, intake, ← f.marked_st l t valid ended, ← f.marked_rs l t valid ended, ← f.marked_setup l t valid ended]
  unfold Feed.primes
  simp only [Bool.and_eq_true, Bool.or_eq_true, beq_iff_eq, decide_eq_true_iff]
  rfl

/-- The pace state after a placement: at rest once the intake has ended, in STREAMING mode, and in BURST mode where the
placement raises the fill to the target or beyond; else as it was (R25, R28). -/
theorem Feed.afterBlock_pace {g : Feed} (hg : g = f.afterBlock l t valid ended false) (play : f.inPlay = true) :
    g.pace =
      if f.setup.mode = .streaming ∨ g.intakeEnded = true ∨
          f.setup.mode = .burst ∧ f.h - f.rs.i < g.h - f.rs.i ∧ 2 ^ f.setup.dExp / 2 ≤ g.h - f.rs.i then paceIdle
      else f.pace := by
  have head : g.h = (f.marked l t valid ended).h := by rw [hg]; rfl
  have intake : g.intakeEnded = (f.marked l t valid ended).primes.intakeEnded := by rw [hg]; rfl
  have inPlay : (f.marked l t valid ended).primes.inPlay = true := by
    rw [Feed.primes_inPlay, Feed.inPlay, f.marked_st]
    exact play
  have pace : g.pace = if (!(f.marked l t valid ended).primes.paceActive false ||
      ((f.marked l t valid ended).primes.setup.mode == .burst && (f.marked l t valid ended).primes.fillRaised f.fill)) = true
      then paceIdle else (f.marked l t valid ended).pace := by rw [hg]; rfl
  have setup : (f.marked l t valid ended).primes.setup = f.setup := f.marked_setup l t valid ended
  have fill : (f.marked l t valid ended).primes.fill = g.h - f.rs.i := by
    rw [head, ← f.marked_rs l t valid ended]
    rfl
  rw [pace, f.marked_pace]
  refine if_congr ?_ rfl rfl
  rw [intake]
  unfold Feed.paceActive Feed.fillRaised
  rw [setup, fill, inPlay]
  simp only [Bool.not_false, Bool.and_true, Bool.or_eq_true, Bool.not_eq_true', Bool.and_eq_false_iff, Bool.and_eq_true,
    beq_iff_eq, decide_eq_true_iff, bne_eq_false_iff_eq, Bool.not_eq_false', or_assoc]
  rfl

end After

/-! ## A block that is placed, said whole -/

/-- The feed after a block that is placed: the placement, the receiver hunting again, the pace state's end (R15, R16,
R26, R28). -/
def Feed.arrived (f : Feed) (l : Lane) (t : Nat) (valid ended : Bool) : Feed :=
  ((f.afterBlock l t valid ended false).setRx l .hunting).paceEnded l

section Arrived

variable {f g : Feed} {l : Lane} {t : Nat} {valid ended : Bool} (hg : g = f.arrived l t valid ended)
include hg

theorem Feed.arrived_eq : g =
    { (f.setLast l (some t)).setRx l .hunting with
      ring := g.ring, h := g.h, sourceEnd := g.sourceEnd, pace := g.pace, watch := g.watch, st := g.st } := by
  rw [hg, Feed.arrived, Feed.paceEnded_eq]
  obtain ⟨b, hb⟩ : ∃ b, b = f.afterBlock l t valid ended false := ⟨_, rfl⟩
  rw [← hb, Feed.afterBlock_eq f l t valid ended false hb]
  cases l <;> rfl

theorem Feed.arrived_kept : g.ring = (f.afterBlock l t valid ended false).ring ∧
    g.h = (f.afterBlock l t valid ended false).h ∧ g.sourceEnd = (f.afterBlock l t valid ended false).sourceEnd ∧
    g.watch = (f.afterBlock l t valid ended false).watch ∧ g.st = (f.afterBlock l t valid ended false).st ∧
    g.intakeEnded = (f.afterBlock l t valid ended false).intakeEnded ∧
    g.pace = f.setup.paceAfter l (f.afterBlock l t valid ended false).pace := by
  have setup := f.afterBlock_setup l t valid ended false
  rw [hg, Feed.arrived, Feed.paceEnded_eq, Feed.setRx_setup, Feed.setRx_pace, setup]
  cases l <;> exact ⟨rfl, rfl, rfl, rfl, rfl, rfl, rfl⟩

theorem Feed.arrived_sourceEnd : g.sourceEnd =
    if (valid && ended) = true then some (f.sourceEnd.elim (t + 31) fun e => min e (t + 31)) else f.sourceEnd := by
  obtain ⟨-, -, source, -⟩ := Feed.arrived_kept hg
  exact source.trans (Feed.afterBlock_sourceEnd ..)

theorem Feed.arrived_watch : g.watch =
    if (valid && !f.intakeEnded) = true then
      if f.watch.armed then { f.watch with marks := f.watch.marks.add l }
      else { f.watch with armed := true, blocks := 0, marks := noLanes.add l, paceBad := false, iOpen := f.rs.i }
    else f.watch := by
  obtain ⟨-, -, -, watch, -⟩ := Feed.arrived_kept hg
  exact watch.trans (Feed.afterBlock_watch ..)

theorem Feed.arrived_setup : g.setup = f.setup := by
  have same := congrArg Feed.setup (Feed.arrived_eq hg)
  exact same.trans ((Feed.setRx_setup ..).trans (Feed.setLast_setup ..))

theorem Feed.arrived_slotAt (q : Nat) : g.slotAt q = (f.ringed l t valid).slotAt q := by
  obtain ⟨ring, -⟩ := Feed.arrived_kept hg
  rw [Feed.slotAt, Feed.slotAt, ring, Feed.afterBlock_ring, Feed.arrived_setup hg, f.ringed_setup]

theorem Feed.arrived_st : g.st =
    if f.st = .seeking ∧ (2 ^ f.setup.dExp / 2 ≤ g.h - f.rs.i ∨ g.intakeEnded = true) then .primed else f.st := by
  obtain ⟨-, h, -, -, st, intake, -⟩ := Feed.arrived_kept hg
  rw [st, h, intake]
  exact Feed.afterBlock_st f l t valid ended false rfl

/-- The pace state at rest, or as after a block that ended (R26, R28). -/
theorem Feed.arrived_pace (play : f.inPlay = true) : g.pace =
    if f.setup.mode = .streaming ∨ g.intakeEnded = true ∨
        f.setup.mode = .burst ∧ f.h - f.rs.i < g.h - f.rs.i ∧ 2 ^ f.setup.dExp / 2 ≤ g.h - f.rs.i then paceIdle
    else f.setup.paceAfter l f.pace := by
  obtain ⟨-, h, -, -, -, intake, pace⟩ := Feed.arrived_kept hg
  have rest : f.setup.paceAfter l paceIdle = paceIdle := if_pos (.inl (by cases l <;> rfl))
  rw [pace, h, intake, Feed.afterBlock_pace f l t valid ended rfl play]
  split
  · rw [rest]
  · rfl

end Arrived

theorem Feed.setRx_toldSlot (f : Feed) (l : Lane) (r : Receiver) (x : Side) (t : Nat) (valid : Bool) (s : State) :
    toldSlot x (f.setRx l r) t valid s = toldSlot x f t valid s := by
  cases l <;> rfl

theorem State.withSamples_setRx (s : State) (x : Side) (l : Lane) (r : Receiver) (t : Nat) (samples : List Byte) :
    (s.setFeed x ((s.feed x).setRx l r)).withSamples x l t samples =
      (State.setFeed { s with mem := (s.withSamples x l t samples).mem } x ((s.feed x).setRx l r)) := by
  cases x <;> cases l <;> rfl

/-- A placement on a feed whose receiver has just begun to hunt. -/
theorem placed_hunting (s : State) (x : Side) (l : Lane) (t : Nat) (valid ended : Bool) (samples : List Byte)
    (run : s.clock.phase = .running) :
    (placed x l t valid ended samples (s.setFeed x ((s.feed x).setRx l .hunting))).onFeed x (fun f => f.paceEnded l) =
      State.setFeed { s with
        mem := if valid = true then (s.withSamples x l t samples).mem else s.mem
        notices := (told x (s.feed x) l t valid s).notices } x ((s.feed x).arrived l t valid ended) := by
  have starting : (s.setFeed x ((s.feed x).setRx l .hunting)).starting = false := by
    rw [State.setFeed_starting, State.starting, run]
    rfl
  obtain ⟨m, hm⟩ : ∃ m, m = if valid = true then (s.withSamples x l t samples).mem else s.mem := ⟨_, rfl⟩
  obtain ⟨w, hw⟩ : ∃ w, w = s.setFeed x ((s.feed x).setRx l .hunting) := ⟨_, rfl⟩
  have written : (if valid = true then w.withSamples x l t samples else w) =
      { s with mem := m, feedA := w.feedA, feedB := w.feedB } := by
    rw [hm, hw]
    split
    · rw [State.withSamples_setRx]
      cases x <;> rfl
    · cases x <;> rfl
  have feed : w.feed x = (s.feed x).setRx l .hunting := by rw [hw, State.feed_setFeed_self]
  rw [← hw] at starting ⊢
  rw [placed_eq, written, starting, feed, Feed.setRx_late, Feed.setRx_afterBlock, Feed.setRx_toldSlot,
    State.onFeed_setFeed, ← told, told_frame, told_rest, ← hm, hw]
  cases x <;> rfl

/-- A block that passes the tests of R16 and R18, on a feed in play that is placed. -/
structure State.Places (s : State) (x : Side) (l : Lane) (v : LaneHeader) (whole : List Byte) : Prop where
  run : s.clock.phase = .running
  play : (s.feed x).inPlay = true
  fits : (s.feed x).setup.n * 2 ^ (s.feed x).setup.dExp ≤ s.pages x * 1024
  fresh : v.stamp.toNat % 32 = 0 ∧ ∀ p, (s.feed x).last l = some p → p < v.stamp.toNat
  within : ¬ (s.feed x).Outlying v.stamp.toNat
  room : (s.feed x).h ≤ v.stamp.toNat ∧ v.stamp.toNat < (s.feed x).rs.i + 2 ^ (s.feed x).setup.dExp ∧
      (∀ q, ((s.feed x).slotAt v.stamp.toNat).stamp = some q → q + 39 < (s.feed x).rs.i) ∨
    v.stamp.toNat < (s.feed x).h ∧ ((s.feed x).slotAt v.stamp.toNat).stamp = some v.stamp.toNat
  lane : checkRight v whole = true → v.laneNo.toNat = l.code ∧ v.count.toNat = (s.feed x).setup.laneCount l

theorem State.Places.stampTest {s : State} {x : Side} {l : Lane} {v : LaneHeader} {whole : List Byte}
    (h : s.Places x l v whole) :
    (s.feed x).stampTest v.stamp.toNat = .place ∧ (s.feed x).findsSlot v.stamp.toNat = true := by
  rw [Feed.stampTest_within h.within, Feed.findsSlot, Bool.or_eq_true, decide_eq_true_iff, beq_iff_eq]
  obtain ⟨ahead, near, free⟩ | ⟨below, finds⟩ := h.room
  · refine ⟨if_neg ?_, .inl ahead⟩
    rintro ⟨-, far | needed⟩
    · exact absurd far (by rw [Setup.depth]; omega)
    · obtain ⟨q, hq, young⟩ := Feed.reusable_eq_false.mp needed
      have := free q hq
      omega
  · exact ⟨if_neg fun beyond => absurd beyond.1 (by omega), .inr finds⟩

/-- The last byte of a block that is placed. -/
theorem exec_laneBlockArrive_placed {s : State} {x : Side} {l : Lane} {v : LaneHeader} {body bytes : List Byte}
    {silent : Nat} (line : s.resetLine = false) (used : l = .l1 → (s.feed x).setup.lanes = 2)
    (rx : (s.feed x).rx l = .receiving v body bytes.length silent) (some_ : 0 < bytes.length)
    (quiet : s.sel.over = false) (places : s.Places x l v (body ++ bytes)) :
    exec (.laneBlockArrive x l bytes) s = .next (State.setFeed { s with
      mem := if checkRight v (body ++ bytes) = true then
        (s.withSamples x l v.stamp.toNat ((body ++ bytes).take (96 * v.count.toNat))).mem else s.mem
      notices := (told x (s.feed x) l v.stamp.toNat (checkRight v (body ++ bytes)) s).notices } x
      ((s.feed x).arrived l v.stamp.toNat (checkRight v (body ++ bytes)) (v.flags.getLsbD 0))) := by
  obtain ⟨test, finds⟩ := places.stampTest
  obtain ⟨w, hw⟩ : ∃ w, w = s.setFeed x ((s.feed x).setRx l .hunting) := ⟨_, rfl⟩
  have feed : w.feed x = (s.feed x).setRx l .hunting := by rw [hw, State.feed_setFeed_self]
  have fresh : (w.feed x).stampFresh l v.stamp.toNat = true := by
    rw [feed, Feed.setRx_stampFresh]
    exact Feed.stampFresh_iff.mpr places.fresh
  have judged := judgeBlock_open (l := l) (v := v) (body := body ++ bytes)
    (by rw [feed, Feed.setRx_inPlay, places.play] : (w.feed x).inPlay = true)
    (by rw [hw, State.setFeed_starting, State.starting, places.run]; rfl)
    (by rw [hw, State.setRx_placed, State.placed, Setup.fits_iff, Nat.mul_comm]; exact places.fits)
  rw [feed, Feed.setRx_stampTest, test, Feed.setRx_findsSlot, finds, Feed.setRx_setup, ← feed, fresh] at judged
  have row : exec (.laneBlockArrive x l bytes) s =
      .next ((judgeBlock x l v (body ++ bytes) w).onFeed x fun f => f.paceEnded l) :=
    congrArg Host.Outcome.next ((laneArrive_whole line used rx some_ quiet).trans (by rw [hw]))
  rw [row]
  cases right : checkRight v (body ++ bytes)
  · rw [judged, if_neg (by rw [right]; decide), if_pos ⟨rfl, rfl, rfl⟩, hw, placed_hunting _ _ _ _ _ _ _ places.run]
    rfl
  · obtain ⟨lane, count⟩ := places.lane right
    rw [judged, if_pos right, if_pos ⟨lane, count, rfl⟩, if_neg (by decide), if_pos ⟨rfl, rfl⟩, hw,
      placed_hunting _ _ _ _ _ _ _ places.run]

/-- The state after a block that is placed: the feed, the sample words and the notices, and nothing else. -/
theorem laneBlockArrive_places {s : State} {x : Side} {l : Lane} {v : LaneHeader} {body bytes : List Byte}
    {silent : Nat} (line : s.resetLine = false) (used : l = .l1 → (s.feed x).setup.lanes = 2)
    (rx : (s.feed x).rx l = .receiving v body bytes.length silent) (some_ : 0 < bytes.length)
    (quiet : s.sel.over = false) (places : s.Places x l v (body ++ bytes)) {valid : Bool}
    (hv : valid = checkRight v (body ++ bytes)) :
    ∃ u : State, exec (.laneBlockArrive x l bytes) s = .next u ∧
      u.feed x = (s.feed x).arrived l v.stamp.toNat valid (v.flags.getLsbD 0) ∧ u.feed x.other = s.feed x.other ∧
      u.mem = (if valid = true then
        (s.withSamples x l v.stamp.toNat ((body ++ bytes).take (96 * v.count.toNat))).mem else s.mem) ∧
      u.notices = (told x (s.feed x) l v.stamp.toNat valid s).notices ∧
      u = { s with feedA := u.feedA, feedB := u.feedB, mem := u.mem, notices := u.notices } := by
  have row := exec_laneBlockArrive_placed line used rx some_ quiet places
  rw [← hv] at row
  refine ⟨_, row, State.feed_setFeed_self .., ?_, ?_, ?_, ?_⟩
  · rw [State.feed_setFeed, if_neg (Side.other_ne x)]
    cases x <;> rfl
  · cases x <;> rfl
  · cases x <;> rfl
  · cases x <;> rfl

theorem Feed.arrived_shape {f g : Feed} {l : Lane} {t : Nat} {valid ended : Bool} (hg : g = f.arrived l t valid ended) :
    ∃ ring h source pace watch st, g =
      { (f.setLast l (some t)).setRx l .hunting with
        ring := ring, h := h, sourceEnd := source, pace := pace, watch := watch, st := st } :=
  ⟨_, _, _, _, _, _, Feed.arrived_eq hg⟩

/-- A SINGLE request after a block that ended (R26). -/
theorem Setup.paceAfter_single {u : Setup} (mode : u.mode = .single) (l : Lane) (p : Pace) : u.paceAfter l p =
    if p.begun.get l = true ∧ p.isOpen = true then
      { p with ended := p.ended.add l, isOpen := !u.coveredBy (p.ended.add l) } else p := by
  unfold Setup.paceAfter
  cases p.begun.get l <;> cases p.isOpen <;> simp [mode]

/-- A BURST window after a block that ended (R28). -/
theorem Setup.paceAfter_burst {u : Setup} (mode : u.mode = .burst) (l : Lane) (p : Pace) : u.paceAfter l p =
    if p.begun.get l = false then p
    else if p.isOpen = false ∧ p.line = true ∧ u.coveredBy (p.ended.add l) = true then
      { p with isOpen := true, try2 := false, window := 0, begun := noLanes, ended := noLanes }
    else { p with ended := p.ended.add l } := by
  unfold Setup.paceAfter
  simp [mode]

section Pace

variable {f g : Feed} {l : Lane} {t : Nat} {valid ended : Bool} (hg : g = f.arrived l t valid ended)
  (play : f.inPlay = true)
include hg play

/-- The line is negated and the window closed at the intake's end, and in BURST mode at the target (R25, R28). -/
theorem Feed.arrived_rests (h : f.setup.mode = .streaming ∨ g.intakeEnded = true ∨
    f.setup.mode = .burst ∧ f.h - f.rs.i < g.h - f.rs.i ∧ 2 ^ f.setup.dExp / 2 ≤ g.h - f.rs.i) :
    g.pace.line = false ∧ g.pace.isOpen = false := by
  rw [Feed.arrived_pace hg play, if_pos h]
  exact ⟨rfl, rfl⟩

theorem Feed.arrived_single (mode : f.setup.mode = .single) (going : g.intakeEnded = false) : g.pace =
    if f.pace.begun.get l = true ∧ f.pace.isOpen = true then
      { f.pace with ended := f.pace.ended.add l, isOpen := !f.setup.coveredBy (f.pace.ended.add l) } else f.pace := by
  rw [Feed.arrived_pace hg play, if_neg (by simp [mode, going]), Setup.paceAfter_single mode]

theorem Feed.arrived_burst (mode : f.setup.mode = .burst) (going : g.intakeEnded = false)
    (low : ¬ (f.h - f.rs.i < g.h - f.rs.i ∧ 2 ^ f.setup.dExp / 2 ≤ g.h - f.rs.i)) : g.pace =
    if f.pace.begun.get l = false then f.pace
    else if f.pace.isOpen = false ∧ f.pace.line = true ∧ f.setup.coveredBy (f.pace.ended.add l) = true then
      { f.pace with isOpen := true, try2 := false, window := 0, begun := noLanes, ended := noLanes }
    else { f.pace with ended := f.pace.ended.add l } := by
  rw [Feed.arrived_pace hg play, if_neg (by simp only [mode, going]; simpa using low), Setup.paceAfter_burst mode]

end Pace

/-! ## A feed with one lane -/

/-- What a block placed at or beyond the head of a feed with one lane leaves of it, with a right or a wrong check word. -/
structure Feed.PlacedAlone (f g : Feed) (t : Nat) (valid : Bool) : Prop where
  rx : g.rx .l0 = .hunting
  own : g.slotAt t = { stamp := some t, state := if valid then .good else .damaged, got := { l0 := true, l1 := false } }
  gap : ∀ j, f.h + 32 * j < t → t < f.h + 32 * j + 2 ^ f.setup.dExp → g.slotAt (f.h + 32 * j) =
    { stamp := some (f.h + 32 * j), state := .missing, got := { l0 := false, l1 := false } }
  head : g.h = t + 32
  last : g.last0 = some t
  st : g.st = if f.st = .seeking ∧ (2 ^ f.setup.dExp / 2 ≤ t + 32 - f.rs.i ∨ g.intakeEnded = true) then .primed else f.st
  single : f.setup.mode = .single → g.intakeEnded = false → g.pace =
    if f.pace.begun.l0 ∧ f.pace.isOpen then { f.pace with ended := { f.pace.ended with l0 := true }, isOpen := false }
    else f.pace
  burst : f.setup.mode = .burst → g.intakeEnded = false → t + 32 - f.rs.i < 2 ^ f.setup.dExp / 2 → g.pace =
    if f.pace.begun.l0 = false then f.pace
    else if f.pace.isOpen = false ∧ f.pace.line = true then
      { f.pace with
        isOpen := true, try2 := false, window := 0, begun := { l0 := false, l1 := false }
        ended := { l0 := false, l1 := false } }
    else { f.pace with ended := { f.pace.ended with l0 := true } }
  rests : f.setup.mode = .streaming ∨ g.intakeEnded = true ∨
      f.setup.mode = .burst ∧ 2 ^ f.setup.dExp / 2 ≤ t + 32 - f.rs.i → g.pace.line = false ∧ g.pace.isOpen = false

theorem Feed.arrived_alone {f g : Feed} {t : Nat} {valid ended : Bool} (hg : g = f.arrived .l0 t valid ended)
    (ok : f.Aligned t) (one : f.setup.lanes = 1) (play : f.inPlay = true) (ahead : f.h ≤ t) :
    f.PlacedAlone g t valid := by
  have own (two : f.setup.lanes = 2) : f.Own := by omega
  have covered (e : LaneSet) : f.setup.coveredBy (e.add .l0) = true :=
    (Setup.coveredBy_iff ..).mpr ⟨rfl, fun two => by omega⟩
  have head : g.h = t + 32 := by
    obtain ⟨-, h, -⟩ := Feed.arrived_kept hg
    rw [h, Feed.afterBlock_h, ok.ringed_h]
    omega
  have depth := ok.depth_eq
  have pos := ok.slots_pos
  have hd : f.setup.depth = 2 ^ f.setup.dExp := rfl
  obtain ⟨ring, h, source, pace, watch, st, shape⟩ := Feed.arrived_shape hg
  refine ⟨by rw [shape]; rfl, ?_, fun j low near => ?_, head, by rw [shape]; rfl, head ▸ Feed.arrived_st hg,
    fun mode going => ?_, fun mode going low => ?_, fun rest => Feed.arrived_rests hg play ?_⟩
  · rw [Feed.arrived_slotAt hg, ok.ringed_own (.inl ahead) own, if_pos ahead, newSlot, one]
    cases valid <;> rfl
  · have inside : f.InGap t (f.h + 32 * j) := ⟨by have := ok.head; omega, by omega, low, near⟩
    rw [Feed.arrived_slotAt hg, ok.ringed_gap (.inl ahead) own inside]
    rfl
  · rw [Feed.arrived_single hg play mode going, covered]
    rfl
  · rw [Feed.arrived_burst hg play mode going (by rw [head]; omega)]
    simp only [covered, and_true]
    rfl
  · refine rest.imp_right (Or.imp_right fun ⟨mode, target⟩ => ⟨mode, ?_, by rw [head]; exact target⟩)
    rw [head]
    omega

/-- A feed with one lane has no skew: the notices are those of the slot. -/
theorem told_alone {f : Feed} (one : f.setup.lanes = 1) (x : Side) (l : Lane) (t : Nat) (valid : Bool) (s : State) :
    told x f l t valid s = toldSlot x f t valid s := by
  rw [told, Feed.late, if_neg (by omega)]
  rfl

/-! ## A feed with two lanes -/

/-- A second half's slot (R20). -/
theorem Slot.joined_eq {w : Slot} {t : Nat} (stamp : w.stamp = some t) (l : Lane) (valid : Bool) : w.joined l valid =
    { stamp := some t
      state := if valid = true ∧ (w.state = .filling ∨ w.state = .good) then .good else .damaged
      got := w.got.add l } := by
  unfold Slot.joined
  rw [stamp]
  cases valid
  · rfl
  · cases state : w.state <;> rfl

theorem only_eq (l : Lane) : noLanes.add l = { l0 := l == .l0, l1 := l == .l1 } := by cases l <;> rfl

/-- Both lanes of a feed with two (R14). -/
theorem Setup.coveredBy_two {u : Setup} (two : u.lanes = 2) (e : LaneSet) : u.coveredBy e = (e.l0 && e.l1) := by
  rw [Setup.coveredBy_eq, two]
  simp

theorem Setup.coveredBy_two_iff {u : Setup} (two : u.lanes = 2) (e : LaneSet) :
    u.coveredBy e = true ↔ e = { l0 := true, l1 := true } := by
  obtain ⟨l0, l1⟩ := e
  rw [Setup.coveredBy_two two, Bool.and_eq_true, LaneSet.mk.injEq]

section Half

variable {f g : Feed} {l : Lane} {t : Nat} {valid ended : Bool} (hg : g = f.arrived l t valid ended)
include hg

theorem Feed.arrived_lanes : g.rx l = .hunting ∧ g.last l = some t ∧
    ∀ k, k ≠ l → g.last k = f.last k ∧ g.rx k = f.rx k := by
  obtain ⟨ring, h, source, pace, watch, st, shape⟩ := Feed.arrived_shape hg
  rw [shape]
  cases l
  · refine ⟨rfl, rfl, fun k other => ?_⟩
    cases k
    · exact absurd rfl other
    · exact ⟨rfl, rfl⟩
  · refine ⟨rfl, rfl, fun k other => ?_⟩
    cases k
    · exact ⟨rfl, rfl⟩
    · exact absurd rfl other

/-- The feed but for what a placement changes. -/
theorem Feed.arrived_frame : g = { f with
    ring := g.ring, h := g.h, last0 := g.last0, last1 := g.last1, sourceEnd := g.sourceEnd, rx0 := g.rx0
    rx1 := g.rx1, pace := g.pace, watch := g.watch, st := g.st } := by
  obtain ⟨ring, h, source, pace, watch, st, shape⟩ := Feed.arrived_shape hg
  rw [shape]
  cases l <;> rfl

variable (ok : f.Aligned t)
include ok

theorem Feed.arrived_h : g.h = max f.h (t + 32) := by
  obtain ⟨-, h, -⟩ := Feed.arrived_kept hg
  rw [h, Feed.afterBlock_h, ok.ringed_h]

variable (two : f.setup.lanes = 2) (own : f.Own) (place : f.h ≤ t ∨ (f.slotAt t).stamp = some t)
include own place

theorem Feed.arrived_missing {q : Nat} (hq : f.InGap t q) : g.slotAt q = missingSlot q := by
  rw [Feed.arrived_slotAt hg, ok.ringed_gap place (fun _ => own) hq]

theorem Feed.arrived_below (below : t < f.h) : g.slotAt t =
    { stamp := some t
      state := if valid = true ∧ ((f.slotAt t).state = .filling ∨ (f.slotAt t).state = .good) then .good else .damaged
      got := (f.slotAt t).got.add l } := by
  rw [Feed.arrived_slotAt hg, ok.ringed_own place (fun _ => own), if_neg (by omega),
    Slot.joined_eq (place.resolve_left (by omega))]

include two

theorem Feed.arrived_ahead (ahead : f.h ≤ t) : g.slotAt t =
    { stamp := some t, state := if valid then .filling else .damaged, got := noLanes.add l } := by
  rw [Feed.arrived_slotAt hg, ok.ringed_own place (fun _ => own), if_pos ahead, newSlot, two]
  cases valid <;> rfl

/-- The slots that the placement does not enter: damaged where the lane left them behind, and else as they were. -/
theorem Feed.arrived_slots {k : Nat} {w : Slot} (hw : f.ring[k]? = some w) (hit : ¬ f.Hit t k) :
    (w.Lags l t → g.ring[k]? = some { w with state := .damaged }) ∧ (¬ w.Lags l t → g.ring[k]? = some w) := by
  obtain ⟨ring, -⟩ := Feed.arrived_kept hg
  have slotted : (f.slotted l t valid).ring[k]? = some w := by rw [ok.slotted_rest l valid hit, hw]
  rw [ring, Feed.afterBlock_ring]
  exact ⟨Feed.ringed_lagging two (ok.slotted_keepsOwn own place l valid) slotted,
    Feed.ringed_get (fun _ => ok.slotted_keepsOwn own place l valid) slotted⟩

end Half

/-- The notices of the skews, named as the obligation names them. -/
theorem toldSkew_eq (x : Side) (late : List Nat) (s : State) : toldSkew x late s =
    late.foldl (fun v q => raise .damage ([BitVec.ofNat 8 x.code, 3] ++ be 2 (q / 32 % 65536)) v) s := by
  unfold toldSkew
  simp only [blockDetail_eq]
  rfl

/-- Settles O16: the feed after a block that is placed is `Feed.arrived`; its slots, source end, watch, state and pace are
read off one by one, the sample words and the notices beside it. -/
theorem laneBlockPlaced : Obligations.LaneBlockPlaced := by
  refine ⟨?_, ?_, ?_⟩
  · intro s x v body bytes silent t f mem line run quiet hf ht rx some_ whole one deep len head play fits lane count
      right aligned last first young source ahead near free
    subst hf ht
    have ok : (s.feed x).Aligned v.stamp.toNat := ⟨len, by omega, head, aligned⟩
    have channels : (s.feed x).setup.laneCount .l0 = (s.feed x).setup.n := if_neg (by omega)
    have places : s.Places x .l0 v (body ++ bytes) :=
      ⟨run, play, fits, ⟨aligned, last⟩, Feed.not_outlying first young (by simp [source]), .inl ⟨ahead, near, free⟩,
        fun _ => ⟨by rw [lane]; rfl, by rw [count, channels]⟩⟩
    obtain ⟨u, row, feed, other, words, notices, rest⟩ :=
      laneBlockArrive_places line (fun two : Lane.l0 = .l1 => nomatch two) rx some_ quiet places right.symm
    obtain ⟨g, hg⟩ : ∃ g, g = u.feed x := ⟨_, rfl⟩
    rw [← hg] at feed
    have alone := Feed.arrived_alone feed ok one play ahead
    have sourceEnd : g.sourceEnd = if v.flags.getLsbD 0 then some (v.stamp.toNat + 31) else none := by
      rw [Feed.arrived_sourceEnd feed, source]
      rfl
    have watch := Feed.arrived_watch feed
    have samples : ((body ++ bytes).take (96 * v.count.toNat)).length = 96 * (s.feed x).setup.n := by
      rw [List.length_take, List.length_append, count]
      omega
    rw [if_pos rfl] at words
    obtain ⟨ring, h, source', pace, watch', st, shape⟩ := Feed.arrived_shape feed
    refine ⟨u, g, row, hg, other, alone.rx, alone.own, alone.gap, alone.head, alone.last, by rw [shape]; rfl,
      by rw [shape]; rfl, by rw [shape]; rfl, by rw [shape]; rfl, sourceEnd, alone.st, fun going => ?_, fun gone => ?_,
      alone.single, alone.burst, alone.rests, fun c k hc hk => ?_, fun a apart => ?_, ?_, by rw [shape]; rfl, rest⟩
    · rw [watch, going]
      split
      · cases armed : (s.feed x).watch.armed
        · exact ⟨rfl, rfl⟩
        · exact ⟨armed, rfl⟩
      next no => exact absurd rfl no
    · rw [watch, gone]
      rfl
    · have word := State.withSamples_read mem channels samples ok.depth_eq ok.slots_pos (t := v.stamp.toNat) hc hk
      rw [show (s.feed x).setup.firstChannel .l0 + c = c from Nat.zero_add c] at word
      rw [words, word, count, sample_of_body hc hk]
    · rw [words]
      refine State.withSamples_other mem channels samples fun c k hc hk => ?_
      rw [show (s.feed x).setup.firstChannel .l0 + c = c from Nat.zero_add c]
      exact apart c k hc hk
    · rw [notices, told_alone one, toldSlot_eq, if_pos rfl, if_neg (c := _ ∧ _) (by omega)]
  · intro s s1 x l v body bytes silent t f line run quiet hf ht hl rx some_ one len deep head play fits wrong aligned last
      first young within ahead near free hs
    subst hf ht hl
    have ok : (s.feed x).Aligned v.stamp.toNat := ⟨len, deep, head, aligned⟩
    have places : s.Places x .l0 v (body ++ bytes) :=
      ⟨run, play, fits, ⟨aligned, last⟩, Feed.not_outlying first young within, .inl ⟨ahead, near, free⟩,
        fun right => by rw [wrong] at right; cases right⟩
    obtain ⟨u, row, feed, other, words, notices, rest⟩ :=
      laneBlockArrive_places line (fun two : Lane.l0 = .l1 => nomatch two) rx some_ quiet places wrong.symm
    obtain ⟨g, hg⟩ : ∃ g, g = u.feed x := ⟨_, rfl⟩
    rw [← hg] at feed
    have alone := Feed.arrived_alone feed ok one play ahead
    have sourceEnd : g.sourceEnd = (s.feed x).sourceEnd := Feed.arrived_sourceEnd feed
    have watch : g.watch = (s.feed x).watch := Feed.arrived_watch feed
    have frame : g = { s.feed x with
        ring := g.ring, h := g.h, last0 := g.last0, rx0 := g.rx0, pace := g.pace, st := g.st, sourceEnd := g.sourceEnd
        watch := g.watch } := by
      obtain ⟨ring, h, source, pace, watch, st, shape⟩ := Feed.arrived_shape feed
      rw [shape]
      rfl
    refine ⟨u, g, row, hg, other, alone.rx, alone.own, alone.head, alone.gap, alone.last, alone.st, alone.single,
      alone.burst, alone.rests, ?_, ?_, ?_⟩
    · rw [sourceEnd, watch] at frame
      exact frame
    · rw [words] at rest
      exact rest
    · rw [notices, told_alone one, toldSlot_eq, if_neg (by decide), ← hs]
  · intro s s1 s2 x l v body bytes silent t count first depth f valid only done hit lags mem line run quiet hf ring hd ht rx
      some_ two lane play fits hvalid half aligned last least young within room honly hdone hhit hlags hs1 hs2
    subst hf hd ht hdone
    have bounds := (Feed.ringOk_iff.mp ring).1
    have ok : (s.feed x).Aligned v.stamp.toNat := by
      obtain ⟨-, len, head, -⟩ := Feed.ringOk_iff.mp ring
      exact ⟨len, (by decide : 5 ≤ 9).trans (Setup.dExp_of_boundsOk bounds), head, aligned⟩
    have own := ring.own
    have hitIff (k : Nat) : hit k ↔ (s.feed x).Hit v.stamp.toNat k := by
      simp only [hhit, Feed.Hit, Feed.InGap, and_assoc]
      rfl
    have lagsIff (k : Nat) (w : Slot) :
        lags k w ↔ (s.feed x).ring[k]? = some w ∧ ¬ (s.feed x).Hit v.stamp.toNat k ∧ w.Lags l v.stamp.toNat := by
      rw [hlags, hitIff, honly, ← only_eq]
      rfl
    have channels : (s.feed x).setup.laneCount l = count ∧ (s.feed x).setup.firstChannel l = first := by
      cases l <;> (obtain ⟨rfl, rfl⟩ := Prod.mk.inj lane; simp [Setup.laneCount, Setup.firstChannel, two])
    obtain ⟨laneCount, firstChannel⟩ := channels
    have place : (s.feed x).h ≤ v.stamp.toNat ∨ ((s.feed x).slotAt v.stamp.toNat).stamp = some v.stamp.toNat :=
      room.imp (fun ⟨ahead, _⟩ => ahead) fun ⟨_, stamp, _⟩ => stamp
    have places : s.Places x l v (body ++ bytes) :=
      ⟨run, play, fits, ⟨aligned, last⟩, Feed.not_outlying least young within,
        room.imp_right fun ⟨below, stamp, _⟩ => ⟨below, stamp⟩, fun right => by
          obtain ⟨-, number, channels⟩ := half (hvalid.trans right)
          exact ⟨number, channels.trans laneCount.symm⟩⟩
    obtain ⟨u, row, feed, other, words, notices, rest⟩ :=
      laneBlockArrive_places line (fun _ => two) rx some_ quiet places hvalid
    obtain ⟨g, hg⟩ : ∃ g, g = u.feed x := ⟨_, rfl⟩
    rw [← hg] at feed
    obtain ⟨hunting, lastOwn, lanes⟩ := Feed.arrived_lanes feed
    have watch := Feed.arrived_watch feed
    have samples (right : valid = true) : ((body ++ bytes).take (96 * v.count.toNat)).length = 96 * count := by
      obtain ⟨size, -, channels⟩ := half right
      rw [List.length_take, List.length_append, channels]
      omega
    refine ⟨u, g, row, hg, other, hunting, lastOwn, lanes, Feed.arrived_h feed ok,
      fun ahead => ?_, fun j low near => ?_, Feed.arrived_below feed ok own place, fun k w hw miss => ?_, ?_,
      Feed.arrived_st feed, fun right going => ?_, fun idle => ?_, fun mode going => ?_, fun mode going low => ?_,
      Feed.arrived_rests feed play, Feed.arrived_frame feed, rest, fun wrong => ?_, fun right c k hc hk => ?_,
      fun a apart => ?_, fun late rising member => ?_⟩
    · rw [honly, ← only_eq]
      exact Feed.arrived_ahead feed ok two own place ahead
    · exact Feed.arrived_missing feed ok own place ⟨by have := ok.head; omega, by omega, low, near⟩
    · have well := Feed.arrived_slots feed ok two own place hw (mt (hitIff k).mpr miss)
      have lagging : lags k w ↔ w.Lags l v.stamp.toNat := by
        rw [lagsIff, ← hitIff]
        simp only [hw, miss, not_false_eq_true, true_and]
      rwa [lagging]
    · rw [Feed.arrived_sourceEnd feed]
      refine if_congr (Bool.and_eq_true ..).to_iff ?_ rfl
      cases (s.feed x).sourceEnd <;> rfl
    · rw [watch, right, going, honly, ← only_eq]
      rfl
    · rw [watch]
      refine if_neg ?_
      obtain wrong | gone := idle
      · simp [wrong]
      · simp [gone]
    · rw [Feed.arrived_single feed play mode going, Setup.coveredBy_two two]
    · rw [Feed.arrived_burst feed play mode going low]
      simp only [Setup.coveredBy_two_iff two]
      rfl
    · rw [words, if_neg (by rw [wrong]; decide)]
    · obtain ⟨-, -, named⟩ := half right
      have word := State.withSamples_read mem laneCount (samples right) ok.depth_eq ok.slots_pos (t := v.stamp.toNat) hc hk
      rw [words, if_pos right, ← firstChannel, word, named, sample_of_body hc hk]
    · rw [words]
      split
      next right =>
        refine State.withSamples_other mem laneCount (samples right) fun c k hc hk => ?_
        rw [firstChannel]
        exact apart c k hc hk
      · rfl
    · have same : late = (s.feed x).late l v.stamp.toNat valid := by
        refine rising.eq_of_mem_iff (ok.late_rising place (fun _ => own) two) fun q => ?_
        rw [member, ok.mem_late place two]
        simp only [lagsIff, and_assoc]
      rw [notices, told, ← same, toldSkew_eq, toldSlot_eq, hs2, hs1]
      cases valid <;> simp

end Sys2Proof.Machine
end
